-- ==== Sys2Proof/Word.lean ====
section
/-! DEFINITION. The words of the block: bytes, register addresses, the 9-bit counts and the
32-bit millisecond time (00_scope R13, R15; 10_state R47, R56). -/

namespace Sys2Proof

/-- An 8-bit unsigned value (R15). -/
abbrev Byte := BitVec 8

/-- A 12-bit byte address of the client register space (R47). -/
abbrev Addr := BitVec 12

/-- A 9-bit count: FLEN, RCOUNT, ECOUNT (R56 to R58). -/
abbrev Count := BitVec 9

/-- A 32-bit unsigned millisecond count: `now` and every timestamp (R13, R40). -/
abbrev Time := BitVec 32

end Sys2Proof
end

