-- ==== Sys2Proof/Config.lean ====
section
/-! DEFINITION. The constants, parameters and free values of the model (00_scope R10 to R14;
93_implementation_defined). A constant with no body (`opaque`) is a value the spec leaves open. -/

namespace Sys2Proof.Config

/-- The client's id (R10). -/
def clientId : BitVec 4 := 0xF#4

/-- The host's (heater's) id (R10). -/
def hostId : BitVec 4 := 0x4#4

/-- The address byte of every frame TRANSACT sends, 0xF4 (R11). -/
def addrOut : Byte := clientId ++ hostId

/-- The only address byte VALIDATE accepts, 0x4F (R11). -/
def addrIn : Byte := hostId ++ clientId

/-- The largest payload whose length byte fits in 8 bits (R13). -/
def maxPayload : Nat := 254

/-- The longest frame (R13). -/
def maxFrame : Nat := maxPayload + 3

/-- The timing parameters of the block, in milliseconds (R12). -/
structure Timing where
  holdoffMs : Nat
  tWakeMs   : Nat
  tEchoMs   : Nat
  tReplyMs  : Nat
  pulseMs   : Nat
deriving DecidableEq, Repr, Inhabited

/-- The defaults of R12. -/
def Timing.standard : Timing :=
  { holdoffMs := 30000, tWakeMs := 50, tEchoMs := 100, tReplyMs := 200, pulseMs := 25 }

/-- The client's own figures: attempts, periods and the keep-alive renewal (R268, R269, R276). -/
structure Pace where
  attempts       : Nat
  keepAliveS     : Nat
  renewBelowS    : Nat
  renewMinutes   : Byte
  defaultMinutes : Byte
  queryMs        : Nat
  countersMs     : Nat
deriving DecidableEq, Repr, Inhabited

/-- The figures of R268, R269 and R276. -/
def Pace.standard : Pace :=
  { attempts := 3, keepAliveS := 10, renewBelowS := 30, renewMinutes := 1#8,
    defaultMinutes := 1#8, queryMs := 5000, countersMs := 30000 }

/-- Two (raw, physical) pairs of a sensor (R273). -/
structure Calibration where
  x1 : Rat
  y1 : Rat
  x2 : Rat
  y2 : Rat
deriving DecidableEq, Repr, Inhabited

/-- The one calibration pair the source gives: temperature, 186 to 18 and 71 to 72 (R273). -/
def temperatureCal : Calibration := { x1 := 186, y1 := 18, x2 := 71, y2 := 72 }

/-- REPLY_LEN(request): the reply payload length the client writes to EXPLEN (R14, R267). -/
structure ReplyLen where
  off      : Byte
  heatOn   : Byte
  ventOn   : Byte
  check    : Byte
  flags    : Byte
  drive    : Byte
  sensors  : Byte
  counters : Byte
  state    : Byte
deriving DecidableEq, Repr, Inhabited

/-- The index in the reply payload of the first data byte of each query's reply
(R267; 93_implementation_defined 26). -/
structure DataPos where
  flags    : Nat
  drive    : Nat
  sensors  : Nat
  counters : Nat
  state    : Nat
deriving DecidableEq, Repr, Inhabited

/-- Which of the drive, sensors and state queries, if any, has a period of its own, and that period.
R276 gives "most sensor/state queries" the period of about 5 s and does not say which are left out; that at
most one of the three is, is the model's reading of "most" (DESIGN CHOICE, log 7). -/
inductive OwnPeriod where
  | nothing
  | drive (ms : Nat)
  | sensors (ms : Nat)
  | state (ms : Nat)
deriving DecidableEq, Repr, Inhabited

/-- The client's open parameters (R14, R276; 93_implementation_defined 21, 24, 26, 27). -/
structure ClientParams where
  replyLen        : ReplyLen
  dataPos         : DataPos
  voltageCal      : Calibration
  resistanceCal   : Calibration
  ownPeriod       : OwnPeriod
  checkTailTested : Bool
deriving DecidableEq, Repr, Inhabited

/-- The open parameters' values on this client: free (DESIGN CHOICE, log 7). -/
opaque clientParams : ClientParams

/-- Whether the bytes after 0xC4 of a CHECK reply are accepted for a checked code, on a client
that tests them at all: free (R265; DESIGN CHOICE, log 19). -/
opaque checkTailAccepted : Byte → List Byte → Bool

/-- The slope of a calibration whose two raw values are equal, which R273's quotient does not
give: free (DESIGN CHOICE, log 18). -/
opaque equalRawSlope : Calibration → Rat

/-- What a buffer byte not written since the `epoch`-th reset holds: "a model draws any bytes"
(R62): free (DESIGN CHOICE, log 1). Arguments: the epoch, then the address. -/
opaque bufferByte : Nat → Nat → Byte

/-- What `t0` holds after the `epoch`-th reset (R38, R62): free (DESIGN CHOICE, log 2). -/
opaque t0AtReset : Nat → Time

/-- RXQ_DEPTH, the capacity of the PHY's receive queue (R13, R14): free (log 9). -/
opaque rxqDepth : Nat

/-- RXQ_OVERFLOW, what the PHY appends, if anything, for a byte that arrives at a full queue
(R14, R156): free (log 9). Arguments: the draw, the queue, the byte. -/
opaque rxqOverflow : Nat → List Byte → Byte → Option Byte

/-- PHY_RX_ERROR, what the PHY delivers, if anything, for a byte received with a framing, parity
or overrun error (R14, R159): free (log 9). Arguments: the draw, the byte on the line. -/
opaque phyRxError : Nat → Byte → Option Byte

/-- Parity of a character (R14). That a parity is one of these five is the model's choice (DESIGN CHOICE,
log 24). -/
inductive Parity where
  | noParity
  | even
  | odd
  | mark
  | space
deriving DecidableEq, Repr, Inhabited

/-- UART_CHAR_FORMAT: bit rate, data bits, parity, stop bits (R14). The spec leaves every format open; that
a format is a rational bit rate, a count of data bits, one of five parities and a rational number of stop bits
is the model's choice, on which nothing depends (DESIGN CHOICE, log 24). -/
structure CharFormat where
  bitRate  : Rat
  dataBits : Nat
  parity   : Parity
  stopBits : Rat
deriving DecidableEq, Repr, Inhabited

/-- UART_CHAR_FORMAT, on which no rule depends (R14, R361): free (log 24). -/
opaque charFormat : CharFormat

/-- BLOCK_BASE, the place of the register space in the client's address space (R88), on which
no rule of the block depends: free (log 24). -/
opaque blockBase : Nat

/-- A register's address as the client's own address space has it (R88). -/
def clientAddress (a : Addr) : Nat := blockBase + a.toNat

end Sys2Proof.Config
end

