-- ==== Sys2Proof/Syntax.lean ====
section
/-! DEFINITION. The instructions: one constructor per row of spec/opcode_table.json. -/

namespace Sys2Proof

/-- The opcode table's rows. The first five are the block's command words (30_encoding R120),
each one client write to CMD. The others are the payload codes of 44_payloads: the client's
requests and the acknowledgements it tests replies against. -/
inductive Instr where
  /-- ENCODE, command word 0x01 (R180). -/
  | encode
  /-- VALIDATE, command word 0x02 (R181). -/
  | validate
  /-- ENSURE_AWAKE, command word 0x03 (R201). -/
  | ensureAwake
  /-- TRANSACT, command word 0x04 (R222). -/
  | transact
  /-- DRAIN, command word 0x05 (R221). -/
  | drain
  /-- OFF, payload 10 (R261). -/
  | off
  /-- OFF_ACK, reply payload byte 90 (R261). -/
  | offAck
  /-- HEAT_ON, payload 21 minutes (R262). -/
  | heatOn (minutes : Byte)
  /-- HEAT_ON_ACK, reply payload bytes A1 minutes (R262). -/
  | heatOnAck (minutes : Byte)
  /-- VENT_ON, payload 22 minutes (R263). -/
  | ventOn (minutes : Byte)
  /-- VENT_ON_ACK, reply payload bytes A2 minutes (R263). -/
  | ventOnAck (minutes : Byte)
  /-- CHECK, payload 44 checked_code 00 (R265). -/
  | check (code : Byte)
  /-- CHECK_ACK, reply payload byte C4 (R265). -/
  | checkAck
  /-- QUERY_FLAGS, payload 50 03 (R266). -/
  | queryFlags
  /-- QUERY_DRIVE, payload 50 04 (R266). -/
  | queryDrive
  /-- QUERY_SENSORS, payload 50 05 (R266). -/
  | querySensors
  /-- QUERY_COUNTERS, payload 50 06 (R266). -/
  | queryCounters
  /-- QUERY_STATE, payload 50 07 (R266). -/
  | queryState
  /-- QUERY_ACK, reply payload byte D0 (R266). -/
  | queryAck
deriving DecidableEq, Repr

end Sys2Proof
end

