-- ==== Sys2Proof/WellFormed.lean ====
section
/-! DEFINITION. Which instructions are well-formed. Every operand but one ranges over all bytes
(R122, R125); the checked code of CHECK is a session's command code (R265). -/

namespace Sys2Proof

/-- The two codes a session can have: 0x21 heating, 0x22 venting (R265, R268). -/
def isSessionCode (c : Byte) : Bool := c == 0x21#8 || c == 0x22#8

/-- `check c` is well-formed when c is "the active session's command code (0x21 or 0x22)" (R265).
The table's row admits any byte there, the decoder reads it, and the block carries it (R125). -/
def Instr.wf : Instr → Bool
  | .check c => isSessionCode c
  | .encode | .validate | .ensureAwake | .transact | .drain => true
  | .off | .offAck | .heatOn _ | .heatOnAck _ | .ventOn _ | .ventOnAck _ | .checkAck => true
  | .queryFlags | .queryDrive | .querySensors | .queryCounters | .queryState | .queryAck => true

/-- The five rows of format CMD8: words the client writes to CMD (R129). -/
def Instr.isCommand : Instr → Bool
  | .encode | .validate | .ensureAwake | .transact | .drain => true
  | .off | .offAck | .heatOn _ | .heatOnAck _ | .ventOn _ | .ventOnAck _ | .check _ | .checkAck
  | .queryFlags | .queryDrive | .querySensors | .queryCounters | .queryState | .queryAck => false

/-- The requests of 44_payloads: payloads the client sends (R261 to R266). -/
def Instr.isRequest : Instr → Bool
  | .off | .heatOn _ | .ventOn _ | .check _
  | .queryFlags | .queryDrive | .querySensors | .queryCounters | .queryState => true
  | .encode | .validate | .ensureAwake | .transact | .drain
  | .offAck | .heatOnAck _ | .ventOnAck _ | .checkAck | .queryAck => false

/-- The acknowledgements of 44_payloads (R260 to R266). -/
def Instr.isAck : Instr → Bool
  | .offAck | .heatOnAck _ | .ventOnAck _ | .checkAck | .queryAck => true
  | .encode | .validate | .ensureAwake | .transact | .drain | .off | .heatOn _ | .ventOn _ | .check _
  | .queryFlags | .queryDrive | .querySensors | .queryCounters | .queryState => false

end Sys2Proof
end

