-- ==== Sys2Proof/Decode.lean ====
section
/-! DEFINITION. The opcode table (30_encoding R120 to R123, R129; 44_payloads R260 to R266): the
decoders of command words and payloads, total on any bytes and rejecting by name, the encoder, and
the table's rows as masks and patterns. -/

namespace Sys2Proof

/-- Why bytes are no row of the opcode table. -/
inductive DecodeError where
  /-- There is no byte. -/
  | noBytes
  /-- CMD[7:4] is not 0 (R121, R123). -/
  | reservedBits
  /-- OP is 0x0 or 0x6 to 0xF (R120, R123). -/
  | reservedOp (op : BitVec 4)
  /-- The first byte is no code the source names (R125). -/
  | unknownCode (code : Byte)
  /-- The second byte of a 0x50 query is none of 03 to 07 (R266). -/
  | unknownQuery (low : Byte)
  /-- The payload's length is not the row's (R261 to R266; 90_conflicts C2). -/
  | wrongLength (code : Byte)
  /-- The third byte of CHECK is not 00 (R265). -/
  | nonzeroArgument
deriving DecidableEq, Repr

/-- OP, bits [3:0] of a command word (R121). -/
def opField (c : Byte) : BitVec 4 := c.extractLsb' 0 4

/-- The reserved bits [7:4] of a command word (R121). -/
def rsvField (c : Byte) : BitVec 4 := c.extractLsb' 4 4

/-- The operation of an OP field (R120). -/
def decodeOp (op : BitVec 4) : Except DecodeError Instr :=
  if op = 0x1#4 then .ok .encode
  else if op = 0x2#4 then .ok .validate
  else if op = 0x3#4 then .ok .ensureAwake
  else if op = 0x4#4 then .ok .transact
  else if op = 0x5#4 then .ok .drain
  else .error (.reservedOp op)

/-- A command word, the byte written to CMD (R121, R123). -/
def decodeCommand (c : Byte) : Except DecodeError Instr :=
  if rsvField c = 0#4 then decodeOp (opField c) else .error .reservedBits

/-- A payload that is the code alone (R261). -/
def decodeNoArgument (code : Byte) (args : List Byte) (i : Instr) : Except DecodeError Instr :=
  match args with
  | [] => .ok i
  | _ :: _ => .error (.wrongLength code)

/-- A payload of a code and one argument byte (R262, R263). -/
def decodeOneArgument (code : Byte) (args : List Byte) (i : Byte → Instr) : Except DecodeError Instr :=
  match args with
  | [m] => .ok (i m)
  | _ => .error (.wrongLength code)

/-- CHECK: code, checked code, zero (R265). -/
def decodeCheck (code : Byte) (args : List Byte) : Except DecodeError Instr :=
  match args with
  | [c, z] => if z = 0x00#8 then .ok (.check c) else .error .nonzeroArgument
  | _ => .error (.wrongLength code)

/-- The query of a low code byte, 0x5003 to 0x5007 (R266). -/
def decodeQueryByte (low : Byte) : Except DecodeError Instr :=
  if low = 0x03#8 then .ok .queryFlags
  else if low = 0x04#8 then .ok .queryDrive
  else if low = 0x05#8 then .ok .querySensors
  else if low = 0x06#8 then .ok .queryCounters
  else if low = 0x07#8 then .ok .queryState
  else .error (.unknownQuery low)

/-- A query: 0x50 and the low byte, high byte first (R266). -/
def decodeQuery (code : Byte) (args : List Byte) : Except DecodeError Instr :=
  match args with
  | [low] => decodeQueryByte low
  | _ => .error (.wrongLength code)

/-- An acknowledgement that echoes an argument in its second byte; "the remaining reply bytes" are
not the row's (R262, R263). -/
def decodeEchoAck (code : Byte) (args : List Byte) (i : Byte → Instr) : Except DecodeError Instr :=
  match args with
  | m :: _ => .ok (i m)
  | [] => .error (.wrongLength code)

/-- A payload by its code byte (R261 to R266). A request is the whole payload; an acknowledgement is
the reply payload's first byte or first two bytes, whatever follows. -/
def decodeCode (code : Byte) (args : List Byte) : Except DecodeError Instr :=
  if code = 0x10#8 then decodeNoArgument code args .off
  else if code = 0x90#8 then .ok .offAck
  else if code = 0x21#8 then decodeOneArgument code args .heatOn
  else if code = 0xA1#8 then decodeEchoAck code args .heatOnAck
  else if code = 0x22#8 then decodeOneArgument code args .ventOn
  else if code = 0xA2#8 then decodeEchoAck code args .ventOnAck
  else if code = 0x44#8 then decodeCheck code args
  else if code = 0xC4#8 then .ok .checkAck
  else if code = 0x50#8 then decodeQuery code args
  else if code = 0xD0#8 then .ok .queryAck
  else .error (.unknownCode code)

/-- A payload, first byte first (R261 to R266). -/
def decodePayload (bytes : List Byte) : Except DecodeError Instr :=
  match bytes with
  | [] => .error .noBytes
  | code :: args => decodeCode code args

/-- Any row of the table: a single byte that is a command word, else a payload. No byte is both
(R120, R129). -/
def decode (bytes : List Byte) : Except DecodeError Instr :=
  match bytes with
  | [c] =>
    match decodeCommand c with
    | .ok i => .ok i
    | .error _ => decodePayload [c]
  | _ => decodePayload bytes

/-- The bytes of an instruction: the command word, or the payload bytes in order. -/
def encode : Instr → List Byte
  | .encode => [0x01#8]
  | .validate => [0x02#8]
  | .ensureAwake => [0x03#8]
  | .transact => [0x04#8]
  | .drain => [0x05#8]
  | .off => [0x10#8]
  | .offAck => [0x90#8]
  | .heatOn minutes => [0x21#8, minutes]
  | .heatOnAck minutes => [0xA1#8, minutes]
  | .ventOn minutes => [0x22#8, minutes]
  | .ventOnAck minutes => [0xA2#8, minutes]
  | .check code => [0x44#8, code, 0x00#8]
  | .checkAck => [0xC4#8]
  | .queryFlags => [0x50#8, 0x03#8]
  | .queryDrive => [0x50#8, 0x04#8]
  | .querySensors => [0x50#8, 0x05#8]
  | .queryCounters => [0x50#8, 0x06#8]
  | .queryState => [0x50#8, 0x07#8]
  | .queryAck => [0xD0#8]

/-- The byte `C <MNEMONIC>` writes to CMD: the first byte of the row (R127). -/
def commandWord (i : Instr) : Byte := (encode i).headD 0x00#8

/-- The acknowledgement byte of a request code: bit 0x80 set (R260). -/
def ackByte (code : Byte) : Byte := code ||| 0x80#8

/-- A row of the opcode table: its size in bytes, its match and its mask. -/
structure OpcodeRow where
  nbytes  : Nat
  pattern : Nat
  mask    : Nat
deriving DecidableEq, Repr

/-- The table's match and mask of each row (opcode_table.json). -/
def opcodeRow : Instr → OpcodeRow
  | .encode => ⟨1, 0x01, 0xFF⟩
  | .validate => ⟨1, 0x02, 0xFF⟩
  | .ensureAwake => ⟨1, 0x03, 0xFF⟩
  | .transact => ⟨1, 0x04, 0xFF⟩
  | .drain => ⟨1, 0x05, 0xFF⟩
  | .off => ⟨1, 0x10, 0xFF⟩
  | .offAck => ⟨1, 0x90, 0xFF⟩
  | .heatOn _ => ⟨2, 0x2100, 0xFF00⟩
  | .heatOnAck _ => ⟨2, 0xA100, 0xFF00⟩
  | .ventOn _ => ⟨2, 0x2200, 0xFF00⟩
  | .ventOnAck _ => ⟨2, 0xA200, 0xFF00⟩
  | .check _ => ⟨3, 0x440000, 0xFF00FF⟩
  | .checkAck => ⟨1, 0xC4, 0xFF⟩
  | .queryFlags => ⟨2, 0x5003, 0xFFFF⟩
  | .queryDrive => ⟨2, 0x5004, 0xFFFF⟩
  | .querySensors => ⟨2, 0x5005, 0xFFFF⟩
  | .queryCounters => ⟨2, 0x5006, 0xFFFF⟩
  | .queryState => ⟨2, 0x5007, 0xFFFF⟩
  | .queryAck => ⟨1, 0xD0, 0xFF⟩

/-- Bytes as the table numbers them: "read high byte first (payload[0] in the top byte)". -/
def tableWord (bytes : List Byte) : Nat := bytes.foldl (fun w b => w * 256 + b.toNat) 0

/-- The `n` bytes of a number, high byte first. -/
def highFirst : Nat → Nat → List Byte
  | 0, _ => []
  | n + 1, w => BitVec.ofNat 8 (w >>> (8 * n)) :: highFirst n w

/-- The bytes of a table word of `nbits` bits, payload[0] in the top byte (log 26). -/
def tableBytes (nbits w : Nat) : List Byte := highFirst (nbits / 8) w

/-- What the decoder reads from a word numbered as the opcode table numbers it (log 26). -/
def decodeTableWord (nbits w : Nat) : Option Instr :=
  match decode (tableBytes nbits w) with
  | .ok i => some i
  | .error _ => none

end Sys2Proof
end

