-- ==== Sys2Proof/Machine/State.lean ====
section
/-! DEFINITION. The state of the machine: the block (10_state R30), the PHY and CLOCK it observes
(R39, R40), its client (44_payloads), the parameters, and the model's own fields; the events agents
bring; the fault and refusal reasons; the state at reset. -/

namespace Sys2Proof.Machine

/-- The buffers' bytes, by register-space address, addresses strictly rising (R36, R47). An address
not listed has not been written since the last reset. -/
abbrev Memory := List Host.Cell

/-- The frame-check results of CHECKS (R51). -/
structure Checks where
  countOk : Bool
  addrOk  : Bool
  lenOk   : Bool
  csumOk  : Bool
  ferr    : BitVec 3
deriving DecidableEq, Repr

/-- CHECKS = 0x00. -/
def Checks.clear : Checks :=
  { countOk := false, addrOk := false, lenOk := false, csumOk := false, ferr := 0#3 }

/-- The echo detector's results of ECHO (R52). -/
structure Echo where
  eshort : Bool
  ediff  : Bool
deriving DecidableEq, Repr

/-- ECHO = 0x00. -/
def Echo.clear : Echo := { eshort := false, ediff := false }

/-- What the block hands to the PHY (R151, R154). -/
inductive PhyCall where
  /-- `phy_write(s)`. -/
  | bytes (s : List Byte)
  /-- `phy_pulse()`, a low level of `ms` milliseconds. -/
  | pulse (ms : Nat)
deriving DecidableEq, Repr

/-- The Command Controller's states (R268). -/
inductive Mode where
  | off
  | heating
  | venting
deriving DecidableEq, Repr

/-- Session: the mode and the remaining seconds (R268). -/
structure Session where
  mode      : Mode
  remaining : Nat
deriving DecidableEq, Repr

/-- Drive levels: glowplug drive, fuel-pump frequency in Hz, combustion-fan drive (R272). -/
structure DriveLevels where
  glowplug : Nat
  pumpHz   : Rat
  fan      : Nat
deriving DecidableEq, Repr

/-- Temperature, supply voltage, glowplug resistance (R273). -/
structure Sensors where
  temperature : Rat
  voltage     : Rat
  resistance  : Rat
deriving DecidableEq, Repr

/-- The two hour counters and the start-cycle counter (R274). -/
structure Counters where
  workingHours : Rat
  secondHours  : Rat
  startCycles  : BitVec 16
deriving DecidableEq, Repr

/-- The client's telemetry snapshots; `none` until the first successful decode (R271 to R276). -/
structure Snapshots where
  flags    : Option Byte
  drive    : Option DriveLevels
  sensors  : Option Sensors
  counters : Option Counters
  state    : Option Byte
deriving DecidableEq, Repr

/-- How the client's last request ended (R264, R277). -/
inductive ClientOutcome where
  /-- Nothing yet since the last request was sent. -/
  | undecided
  /-- The acknowledgement test passed. -/
  | confirmed
  /-- `CommandNotAcknowledged` (R264). -/
  | notAcknowledged
  /-- The reply was acknowledged but too short for the query's data bytes (R276, log 18). -/
  | undecodable
  /-- The block's own result, a RES that is not OK (R301). -/
  | blockError (res : BitVec 3)
  /-- DONE is 1 for another command than TRANSACT: there is no reply to test (R264, log 16). -/
  | noReply
deriving DecidableEq, Repr

/-- Where an attempt stands: "Each attempt calls ENSURE_AWAKE, then TRANSACT with the request, then
the acknowledgement test" (R268). -/
inductive Stage where
  /-- ENSURE_AWAKE is to be written to CMD. -/
  | wake
  /-- DONE is polled for ENSURE_AWAKE. -/
  | wakeWait
  /-- The request is to be sent. -/
  | send
  /-- DONE is polled for TRANSACT; then the reply is tested. -/
  | replyWait
deriving DecidableEq, Repr

/-- A client operation in progress: its request, the attempts left, this one included, the stage. -/
structure Job where
  request  : Instr
  attempts : Nat
  stage    : Stage
deriving DecidableEq, Repr

/-- The periodic tasks a tick chooses among: "{keep-alive, five telemetry queries}" (R276). -/
inductive Task where
  | keepAlive
  | flags
  | drive
  | sensors
  | counters
  | state
deriving DecidableEq, Repr

/-- When each periodic task last ran; `none` is never (R269, R276). -/
structure LastRun where
  keepAlive : Option Time
  flags     : Option Time
  drive     : Option Time
  sensors   : Option Time
  counters  : Option Time
  state     : Option Time
deriving DecidableEq, Repr

/-- The CLIENT agent's own state (44_payloads). -/
structure Client where
  session   : Session
  pending   : Option Instr
  outcome   : ClientOutcome
  job       : Option Job
  snapshots : Snapshots
  nextTask  : Task
  lastRun   : LastRun
deriving DecidableEq, Repr

/-- The Command Controller's operations; a minute argument may be left unspecified (R268). -/
inductive ClientCall where
  | heatOn (minutes : Option Byte)
  | ventOn (minutes : Option Byte)
  | off
deriving DecidableEq, Repr

/-- One atomic event of one agent (R91). The first seven are the script statements of R127. -/
inductive Event where
  /-- CLIENT: `MemWrite(a, 1, v)`; a = 0x000 is a command word (`W`, `C`). -/
  | write (a : Addr) (v : Byte)
  /-- CLIENT: `MemRead(a, 1)` (`R`). -/
  | read (a : Addr)
  /-- CLIENT: read STATUS again and again until DONE = 1 (`POLL`). -/
  | poll
  /-- SEQ takes one step (`STEP`). -/
  | seq
  /-- PHY appends these bytes to `rxq` (`ENV rx`). -/
  | rx (bs : List Byte)
  /-- PHY sets `tx_idle` (`ENV tx_idle`). -/
  | txIdle (b : Bool)
  /-- CLOCK sets `now` to `ms`, which must not be less than `now` (`ENV t=`). -/
  | clockTo (ms : Nat)
  /-- RST is asserted (R340). It is one instant: how long RST stays asserted, and what an access or a SEQ
  step does meanwhile, the spec does not say (DESIGN CHOICE, log 28). -/
  | rst
  /-- CLIENT: a payload of 44_payloads: a request is sent, an acknowledgement is tested. -/
  | payload (bs : List Byte)
  /-- PHY: a byte arrives on the line, with or without a receive error (R14, R159). -/
  | line (b : Byte) (err : Bool)
  /-- PHY removes the oldest `k` bytes of `rxq`, against its duty (R156, R304). -/
  | phyRemove (k : Nat)
  /-- A caller above the client calls the Command Controller (R268; log 20). -/
  | call (c : ClientCall)
  /-- The external tick, with or without an opportunistic drain (R276). -/
  | tick (drain : Bool)
  /-- CLIENT: the job in progress makes its next move (R268). -/
  | client
deriving DecidableEq, Repr

/-- The machine's state. -/
structure State where
  /-- `phase`, 4 bits; BUSY is `phase != IDLE` (R34, R35). -/
  phase     : BitVec 4
  /-- The value of `now` when a wait phase was entered (R38). -/
  t0        : Time
  /-- PLEN (R53). -/
  plen      : Byte
  /-- EXPLEN (R54). -/
  explen    : Byte
  /-- ADDR (R55). -/
  addr      : Byte
  /-- FLEN (R56). -/
  flen      : Count
  /-- RES of RESULT (R50). -/
  res       : BitVec 3
  /-- LASTOP of RESULT (R50). -/
  lastOp    : BitVec 4
  /-- CHECKS (R51). -/
  checks    : Checks
  /-- ECHO (R52). -/
  echo      : Echo
  /-- RCOUNT (R57). -/
  rcount    : Count
  /-- ECOUNT (R58). -/
  ecount    : Count
  /-- DONE (R34). -/
  done      : Bool
  /-- CMD_ERR (R34). -/
  cmdErr    : Bool
  /-- WOKE (R34). -/
  woke      : Bool
  /-- LIVE_VALID (R37). -/
  liveValid : Bool
  /-- LIVE_TS (R37, R60). -/
  liveTs    : Time
  /-- The bytes of PBUF, FBUF and RBUF (R36). -/
  mem       : Memory
  /-- The PHY's receive queue, oldest byte first (R39). -/
  rxq       : List Byte
  /-- The PHY's report that nothing is pending on the wire (R39). -/
  txIdle    : Bool
  /-- What the block has handed to the PHY, oldest first (R151, R154; log 12). -/
  phyOut    : List PhyCall
  /-- The clock (R40). -/
  now       : Time
  /-- The client agent (44_payloads). -/
  client    : Client
  /-- The block's timing parameters (R12; log 6). -/
  timing    : Config.Timing
  /-- The client's figures (R268, R269, R276; log 6). -/
  pace      : Config.Pace
  /-- The client's open parameters (R14; log 7). -/
  params    : Config.ClientParams
  /-- The model's own: how many resets, the index of the free values of R62 (logs 1 and 2). -/
  epoch     : Nat
  /-- The model's own: the index of the free values of the PHY's receive side (log 9). -/
  rxDraws   : Nat
  /-- The model's own: the events still to happen, in order (R91; log 4). -/
  inputs    : List Event
  /-- The model's own: what client reads have returned, newest first (R46; log 12). -/
  reads     : List (Addr × Byte)
deriving DecidableEq, Repr

/-- Why the machine stops with a fault. No instruction raises any of them. -/
inductive Fault where
  /-- `step` finds a `phase` of 10 to 15 (R124, R304). Safe: the spec asks for a fault of the model,
  and no step from a legal state reaches one. -/
  | reservedPhase
  /-- `step` finds a RES of 5 to 7 (R124, R304). Safe, as above. -/
  | reservedResult
  /-- `step` finds an FERR of 5 to 7 (R124, R304). Safe, as above. -/
  | reservedFerr
  /-- The event `phyRemove`: the PHY breaks its duty (R156, R304). Safe: the spec asks for it. -/
  | phyRemovedBytes
  /-- The event `clockTo` below `now`: CLOCK breaks its duty (R156, R304). Safe: the spec asks for it. -/
  | clockBackwards
  /-- The events `call` and `tick` while a job is in progress: a second concurrent caller, outside
  the model (R90; log 20). Safe: the machine stops where the spec gives no behaviour. -/
  | concurrentCaller
deriving DecidableEq, Repr

/-- Why the machine refuses an input. -/
inductive Refusal where
  /-- An arm of `exec` that has no meaning yet. Safe: the machine stops. -/
  | notModelled (mnemonic : String)
  /-- The event `payload` with bytes that are no row of the table (R125; log 23). Safe: the machine
  stops; such bytes are carried as any payload by register writes. -/
  | notARow (reason : DecodeError)
deriving DecidableEq, Repr

/-- No session, nothing pending, nothing decoded (DESIGN CHOICE, logs 15 and 17). -/
def Client.initial : Client :=
  { session := { mode := .off, remaining := 0 }
    pending := none
    outcome := .undecided
    job := none
    snapshots := { flags := none, drive := none, sensors := none, counters := none, state := none }
    nextTask := .keepAlive
    lastRun := { keepAlive := none, flags := none, drive := none, sensors := none, counters := none,
                 state := none } }

/-- The machine right after reset: the block at R62's values; the PHY, CLOCK, client and model
fields at the values of logs 1 to 4, 6, 7, 9, 12, 15 and 17. -/
def State.reset : State :=
  { phase := 0#4
    t0 := Config.t0AtReset 0
    plen := 0x00#8
    explen := 0x00#8
    addr := 0xF4#8
    flen := 0#9
    res := 0#3
    lastOp := 0#4
    checks := Checks.clear
    echo := Echo.clear
    rcount := 0#9
    ecount := 0#9
    done := false
    cmdErr := false
    woke := false
    liveValid := false
    liveTs := 0#32
    mem := []
    rxq := []
    txIdle := true
    phyOut := []
    now := 0#32
    client := Client.initial
    timing := Config.Timing.standard
    pace := Config.Pace.standard
    params := Config.clientParams
    epoch := 0
    rxDraws := 0
    inputs := []
    reads := [] }

end Sys2Proof.Machine
end

