-- ==== Sys2Proof/Machine/Ops.lean ====
section
/-! DEFINITION. The shared operations: the buffers' memory (10_state R36, R47), the PHY primitives
(00_scope R17; 40_transport R150 to R154), elapsed time (R18, R40), and what stands for taking an
exception and returning from one: acceptance, refusal and `finish` (10_state R43 to R45; 60_exceptions
R300, R312, R313). -/

namespace Sys2Proof.Machine

/-- IDLE (R35). -/
abbrev phaseIdle : BitVec 4 := 0#4
/-- WAKE_DRAIN (R35). -/
abbrev phaseWakeDrain : BitVec 4 := 1#4
/-- WAKE_PULSE (R35). -/
abbrev phaseWakePulse : BitVec 4 := 2#4
/-- WAKE_HOLD (R35). -/
abbrev phaseWakeHold : BitVec 4 := 3#4
/-- WAKE_WAIT (R35). -/
abbrev phaseWakeWait : BitVec 4 := 4#4
/-- TX_DRAIN (R35). -/
abbrev phaseTxDrain : BitVec 4 := 5#4
/-- TX_WRITE (R35). -/
abbrev phaseTxWrite : BitVec 4 := 6#4
/-- TX_FLUSH (R35). -/
abbrev phaseTxFlush : BitVec 4 := 7#4
/-- ECHO_WAIT (R35). -/
abbrev phaseEchoWait : BitVec 4 := 8#4
/-- REPLY_WAIT (R35). -/
abbrev phaseReplyWait : BitVec 4 := 9#4

/-- OK (R50). -/
abbrev resOk : BitVec 3 := 0#3
/-- ECHO_MISMATCH (R50). -/
abbrev resEchoMismatch : BitVec 3 := 1#3
/-- REPLY_TIMEOUT (R50). -/
abbrev resReplyTimeout : BitVec 3 := 2#3
/-- MALFORMED (R50). -/
abbrev resMalformed : BitVec 3 := 3#3
/-- REFUSED (R50). -/
abbrev resRefused : BitVec 3 := 4#3

/-- FERR codes: NONE, COUNT, ADDRESS, LENGTH, CHECKSUM (R51, R175). -/
abbrev ferrNone : BitVec 3 := 0#3
/-- FERR = COUNT. -/
abbrev ferrCount : BitVec 3 := 1#3
/-- FERR = ADDRESS. -/
abbrev ferrAddress : BitVec 3 := 2#3
/-- FERR = LENGTH. -/
abbrev ferrLength : BitVec 3 := 3#3
/-- FERR = CHECKSUM. -/
abbrev ferrChecksum : BitVec 3 := 4#3

/-- BUSY is 1 exactly when `phase != IDLE` (R34). -/
def State.busy (s : State) : Bool := s.phase != phaseIdle

/-! ### Buffers -/

/-- The address of PBUF[0] (R47). -/
abbrev pbufBase : Nat := 0x100
/-- The size of PBUF (R36). -/
abbrev pbufSize : Nat := 254
/-- The address of FBUF[0] (R47). -/
abbrev fbufBase : Nat := 0x200
/-- The size of FBUF (R36). -/
abbrev fbufSize : Nat := 257
/-- The address of RBUF[0] (R47). -/
abbrev rbufBase : Nat := 0x400
/-- The size of RBUF (R36). -/
abbrev rbufSize : Nat := 257

/-- `a` is one of the `size` addresses from `base`. -/
def inWindow (base size a : Nat) : Bool := decide (base ≤ a) && decide (a < base + size)

/-- `a` is a byte of PBUF, FBUF or RBUF (R47). -/
def isBuffer (a : Nat) : Bool :=
  inWindow pbufBase pbufSize a || inWindow fbufBase fbufSize a || inWindow rbufBase rbufSize a

/-- The canonical form: addresses strictly rising, each a buffer byte's. -/
abbrev Memory.wf (m : Memory) : Prop :=
  m.Pairwise (fun p q => p.1 < q.1) ∧ ∀ p ∈ m, isBuffer p.1 = true

/-- The byte written at an address since the last reset, if there is one. -/
def Memory.find : Memory → Nat → Option Byte
  | [], _ => none
  | (b, v) :: rest, a => if a = b then some v else Memory.find rest a

/-- Write a byte, keeping the addresses strictly rising. -/
def Memory.put : Memory → Nat → Byte → Memory
  | [], a, v => [(a, v)]
  | (b, w) :: rest, a, v =>
    if a < b then (a, v) :: (b, w) :: rest
    else if a = b then (a, v) :: rest
    else (b, w) :: Memory.put rest a v

/-- The byte at a buffer address: the one written, else the free value of R62 (log 1). Other
addresses read 0x00 (R61). -/
def readBuffer (s : State) (a : Nat) : Byte :=
  if isBuffer a then
    match s.mem.find a with
    | some v => v
    | none => Config.bufferByte s.epoch a
  else 0x00#8

/-- Write a buffer byte; other addresses ignore the write (R61; log 21). -/
def writeBuffer (s : State) (a : Nat) (v : Byte) : State :=
  if isBuffer a then { s with mem := s.mem.put a v } else s

/-- Write bytes at ascending addresses from `a` (R84). -/
def writeBytes (s : State) (a : Nat) : List Byte → State
  | [] => s
  | b :: bs => writeBytes (writeBuffer s a b) (a + 1) bs

/-- The `n` bytes from address `a`. -/
def readBytes (s : State) (a : Nat) : Nat → List Byte
  | 0 => []
  | n + 1 => readBuffer s a :: readBytes s (a + 1) n

/-! ### The PHY and the clock -/

/-- `elapsed(t0) = (now - t0) mod 2^32` (R18). -/
def elapsed (s : State) (since : Time) : Nat := (s.now - since).toNat

/-- `rx_discard_all()` (R153). -/
def rxDiscardAll (s : State) : State := { s with rxq := [] }

/-- `rx_take(k)`: what stays in `rxq` (R152). The bytes taken are `s.rxq.take k`. -/
def rxTake (k : Nat) (s : State) : State := { s with rxq := s.rxq.drop k }

/-- `phy_write(bs)`; `tx_idle` becomes 0 in the same step (R151). -/
def phyWrite (bs : List Byte) (s : State) : State :=
  { s with phyOut := s.phyOut ++ [.bytes bs], txIdle := false }

/-- `phy_pulse()`; `tx_idle` becomes 0 in the same step (R154). -/
def phyPulse (s : State) : State :=
  { s with phyOut := s.phyOut ++ [.pulse s.timing.pulseMs], txIdle := false }

/-! ### Acceptance, refusal, completion -/

/-- `finish(res)`: RES, DONE, and `phase <- IDLE`; it is what stands for trap entry and for the
return from one (R44, R312, R313). -/
def finish (r : BitVec 3) (s : State) : State := { s with res := r, done := true, phase := phaseIdle }

/-- A refusal at acceptance, LASTOP already written (R43). -/
def refuse (s : State) : State := { s with res := resRefused, done := true, cmdErr := true }

/-- What every accepted command clears (R43). -/
def clearResults (s : State) : State :=
  { s with done := false, cmdErr := false, checks := Checks.clear, echo := Echo.clear,
           ecount := 0#9, rcount := 0#9 }

/-- A CMD write while BUSY (R45). -/
def commandWhileBusy (s : State) : State := { s with cmdErr := true }

/-- The write of a legal command word: dropped while BUSY (R45), else LASTOP is written and the
command is refused if its operands are out of range and otherwise accepted (R43). -/
def acceptCommand (op : BitVec 4) (operandsLegal : Bool) (accept : State → State) (s : State) : State :=
  if s.busy then commandWhileBusy s
  else if operandsLegal then accept (clearResults { s with lastOp := op })
  else refuse { s with lastOp := op }

/-- The write of an illegal command word: OP 0x0 or 0x6 to 0xF, or CMD[7:4] != 0 (R43, R45, R123). -/
def illegalCommand (c : Byte) (s : State) : State :=
  if s.busy then commandWhileBusy s else refuse { s with lastOp := opField c }

/-- Go on from a next state; a fault or a refusal stays. -/
def andThen (o : Host.Outcome State Fault Refusal) (f : State → Host.Outcome State Fault Refusal) :
    Host.Outcome State Fault Refusal :=
  match o with
  | .next s => f s
  | .fault r => .fault r
  | .refused r => .refused r

end Sys2Proof.Machine
end

