-- ==== Sys2Proof/Machine/Operands.lean ====
section
/-! DEFINITION. Operand assembly (30_encoding R122): every operand an operation reads, and the
operand ranges of acceptance (10_state R43). -/

namespace Sys2Proof.Machine

/-- n = PLEN, zero-extended (R122). -/
def payloadLength (s : State) : Nat := s.plen.toNat

/-- e = EXPLEN, zero-extended (R122). -/
def expectedLength (s : State) : Nat := s.explen.toNat

/-- M = EXPLEN + 3, the reply's byte count (R229). -/
def replyLength (s : State) : Nat := expectedLength s + 3

/-- The payload `PBUF[0..n-1]` (R122). -/
def payload (s : State) : List Byte := readBytes s pbufBase (payloadLength s)

/-- The frame `FBUF[0..FLEN-1]`: VALIDATE's raw bytes, TRANSACT's sent frame (R122, R225). -/
def frameBytes (s : State) : List Byte := readBytes s fbufBase s.flen.toNat

/-- The captured reply `RBUF[0..M-1]` (R230). -/
def replyBytes (s : State) : List Byte := readBytes s rbufBase (replyLength s)

/-- The reply payload `RBUF[2..2+e-1]` of a TRANSACT that returned OK (R36). The rule does not say when the
client takes e; that e is EXPLEN as it stands when the payload is read, and not the EXPLEN TRANSACT was accepted
with, is the model's choice (DESIGN CHOICE, log 29). The two differ only if the client writes EXPLEN after
DONE. -/
def replyPayload (s : State) : List Byte := readBytes s (rbufBase + 2) (expectedLength s)

/-- ENCODE needs `PLEN <= 254` (R43). -/
def encodeLegal (s : State) : Bool := decide (payloadLength s ≤ Config.maxPayload)

/-- VALIDATE needs `EXPLEN <= 254` and `FLEN <= 257` (R43). -/
def validateLegal (s : State) : Bool :=
  decide (expectedLength s ≤ Config.maxPayload) && decide (s.flen.toNat ≤ Config.maxFrame)

/-- TRANSACT needs `PLEN <= 254` and `EXPLEN <= 254` (R43). -/
def transactLegal (s : State) : Bool :=
  decide (payloadLength s ≤ Config.maxPayload) && decide (expectedLength s ≤ Config.maxPayload)

end Sys2Proof.Machine
end

