-- ==== Sys2Proof/Machine/Flags.lean ====
section
/-! DEFINITION. The checksum, the frame builder, the frame validator (41_framer R170 to R175), and the
packing of flags and counts into the read-only registers (10_state R49 to R60). -/

namespace Sys2Proof.Machine

/-- The XOR of every byte, starting from 0x00 (R170). -/
def xorFold (s : List Byte) : Byte := s.foldl (fun x b => x ^^^ b) 0x00#8

/-- The length byte, `(n + 1) mod 256` (R112). -/
def lengthByte (n : Nat) : Byte := BitVec.ofNat 8 (n + 1)

/-- The address, length and payload bytes of a frame. -/
def frameBody (a : Byte) (p : List Byte) : List Byte := a :: lengthByte p.length :: p

/-- `frame(a, p) = a || [n + 1] || p || [xor_fold(a || [n + 1] || p)]` (R171). -/
def frame (a : Byte) (p : List Byte) : List Byte := frameBody a p ++ [xorFold (frameBody a p)]

/-- (a) the byte count is e + 3 (R173). -/
def countCheck (f : List Byte) (e : Nat) : Bool := f.length == e + 3

/-- (b) byte 0 is ADDR_IN (R173). -/
def addressCheck (f : List Byte) : Bool :=
  match f with
  | a :: _ => a == Config.addrIn
  | [] => false

/-- (c) byte 1 is the byte count less 2, as an integer (R173). -/
def lengthCheck (f : List Byte) : Bool :=
  match f with
  | _ :: l :: rest => l.toNat == rest.length
  | _ => false

/-- (d) the last byte is the XOR of the bytes before it (R173). -/
def checksumCheck (f : List Byte) : Bool :=
  match f.getLast? with
  | some c => c == xorFold f.dropLast
  | none => false

/-- FERR, the first failing check in the order (a) to (d) (R173, R174). -/
def firstError (count addr len csum : Bool) : BitVec 3 :=
  if count = false then ferrCount
  else if addr = false then ferrAddress
  else if len = false then ferrLength
  else if csum = false then ferrChecksum
  else ferrNone

/-- `check_frame(F, e)`: all four checks, and FERR (R173). -/
def checkFrame (f : List Byte) (e : Nat) : Checks :=
  { countOk := countCheck f e
    addrOk := addressCheck f
    lenOk := lengthCheck f
    csumOk := checksumCheck f
    ferr := firstError (countCheck f e) (addressCheck f) (lengthCheck f) (checksumCheck f) }

/-- The frame is valid exactly when all four checks hold (R174). -/
def Checks.ok (c : Checks) : Bool := c.countOk && c.addrOk && c.lenOk && c.csumOk

/-- A bit as a 1-bit value. -/
abbrev bit (b : Bool) : BitVec 1 := BitVec.ofBool b

/-- STATUS: 000 LIVE_VALID WOKE CMD_ERR DONE BUSY (R49). -/
def statusByte (s : State) : Byte :=
  0#3 ++ bit s.liveValid ++ bit s.woke ++ bit s.cmdErr ++ bit s.done ++ bit s.busy

/-- RESULT: LASTOP 0 RES (R50). -/
def resultByte (s : State) : Byte := s.lastOp ++ 0#1 ++ s.res

/-- CHECKS: 0 FERR CSUM_OK LEN_OK ADDR_OK COUNT_OK (R51, R175). -/
def checksByte (c : Checks) : Byte :=
  0#1 ++ c.ferr ++ bit c.csumOk ++ bit c.lenOk ++ bit c.addrOk ++ bit c.countOk

/-- ECHO: 000000 EDIFF ESHORT (R52). -/
def echoByte (e : Echo) : Byte := 0#6 ++ bit e.ediff ++ bit e.eshort

/-- PHASE: 0000 phase (R59). -/
def phaseByte (s : State) : Byte := 0#4 ++ s.phase

/-- The low byte of a 9-bit count (R56 to R58, R83). -/
def countLow (c : Count) : Byte := c.extractLsb' 0 8

/-- The high byte of a 9-bit count: bits [7:1] read 0 (R56 to R58, R83). -/
def countHigh (c : Count) : Byte := 0#7 ++ c.extractLsb' 8 1

/-- Byte `k` of LIVE_TS, byte 0 the least significant (R60, R83). -/
def timeByte (t : Time) (k : Nat) : Byte := t.extractLsb' (8 * k) 8

/-- A count from its bytes: `zext_9(high[0]) << 8 | low` (R56). -/
def countOf (high low : Byte) : Count := high.extractLsb' 0 1 ++ low

end Sys2Proof.Machine
end

