-- ==== Sys2Proof/Machine/Framer.lean ====
section
/-! DEFINITION. The framer's commands ENCODE and VALIDATE (41_framer R180, R181). -/

namespace Sys2Proof.Machine

/-- Put `frame(a, PBUF[0..n-1])` into FBUF and its length into FLEN (R180, R223). -/
def buildFrame (a : Byte) (s : State) : State :=
  { writeBytes s fbufBase (frame a (payload s)) with flen := BitVec.ofNat 9 (payloadLength s + 3) }

/-- The accept step of ENCODE (R180). -/
def encodeAccept (s : State) : State := finish resOk (buildFrame s.addr s)

/-- RES of a validation: OK, or MALFORMED whichever check failed (R174, R176). -/
def validationResult (c : Checks) : BitVec 3 := if c.ok then resOk else resMalformed

/-- The accept step of VALIDATE (R181). -/
def validateAccept (s : State) : State :=
  finish (validationResult (checkFrame (frameBytes s) (expectedLength s)))
    { s with checks := checkFrame (frameBytes s) (expectedLength s) }

/-- ENCODE: the write of command word 0x01 (R43, R45, R180). -/
def execEncode (s : State) : Host.Outcome State Fault Refusal :=
  .next (acceptCommand 0x1#4 (encodeLegal s) encodeAccept s)

/-- VALIDATE: the write of command word 0x02 (R43, R45, R181). -/
def execValidate (s : State) : Host.Outcome State Fault Refusal :=
  .next (acceptCommand 0x2#4 (validateLegal s) validateAccept s)

end Sys2Proof.Machine
end

