-- ==== Sys2Proof/Machine/Engine.lean ====
section
/-! DEFINITION. The request/response engine: DRAIN, TRANSACT and its five phases, the echo detector
and the reply capture (43_transact R221 to R230). -/

namespace Sys2Proof.Machine

/-- The accept step of DRAIN (R221). -/
def drainAccept (s : State) : State := finish resOk (rxDiscardAll s)

/-- The write of DRAIN's command word (R43, R45). -/
def writeDrain (s : State) : State := acceptCommand 0x5#4 true drainAccept s

/-- DRAIN: the write of command word 0x05 (R43, R45, R221). -/
def execDrain (s : State) : Host.Outcome State Fault Refusal := .next (writeDrain s)

/-- The accept step of TRANSACT (R223). -/
def transactAccept (s : State) : State :=
  { buildFrame Config.addrOut s with phase := phaseTxDrain }

/-- The write of TRANSACT's command word (R43, R45). -/
def writeTransact (s : State) : State := acceptCommand 0x4#4 (transactLegal s) transactAccept s

/-- TRANSACT: the write of command word 0x04 (R43, R45, R222). -/
def execTransact (s : State) : Host.Outcome State Fault Refusal := .next (writeTransact s)

/-- Phase TX_DRAIN (R224). -/
def txDrainStep (s : State) : State := { rxDiscardAll s with phase := phaseTxWrite }

/-- Phase TX_WRITE (R225). -/
def txWriteStep (s : State) : State := { phyWrite (frameBytes s) s with phase := phaseTxFlush }

/-- Phase TX_FLUSH: no timeout (R226, R155). -/
def txFlushStep (s : State) : State :=
  if s.txIdle then { s with t0 := s.now, phase := phaseEchoWait } else s

/-- k, how many echo bytes this step takes (R227). -/
def echoTake (s : State) : Nat := min s.rxq.length (s.flen.toNat - s.ecount.toNat)

/-- Some byte taken differs from the byte sent at its position (R227). -/
def echoDiffers (s : State) : Bool :=
  s.rxq.take (echoTake s) != readBytes s (fbufBase + s.ecount.toNat) (echoTake s)

/-- The echo bytes of this step are taken and compared; EDIFF is sticky (R227). -/
def echoConsume (s : State) : State :=
  { rxTake (echoTake s) s with
    echo := { s.echo with ediff := s.echo.ediff || echoDiffers s }
    ecount := BitVec.ofNat 9 (s.ecount.toNat + echoTake s) }

/-- The echo detector's verdict once this step's bytes are taken (R227). -/
def echoVerdict (s : State) : State :=
  if s.ecount = s.flen then
    if s.echo.ediff then finish resEchoMismatch s
    else { s with t0 := s.now, phase := phaseReplyWait }
  else if s.timing.tEchoMs ≤ elapsed s s.t0 then
    finish resEchoMismatch { s with echo := { s.echo with eshort := true } }
  else s

/-- Phase ECHO_WAIT (R227). -/
def echoWaitStep (s : State) : State := echoVerdict (echoConsume s)

/-- k, how many reply bytes this step takes (R229). -/
def replyTake (s : State) : Nat := min s.rxq.length (replyLength s - s.rcount.toNat)

/-- The reply bytes of this step are taken into RBUF (R229). -/
def replyConsume (s : State) : State :=
  { writeBytes (rxTake (replyTake s) s) (rbufBase + s.rcount.toNat) (s.rxq.take (replyTake s)) with
    rcount := BitVec.ofNat 9 (s.rcount.toNat + replyTake s) }

/-- Validation of the captured reply, and the marker's update on success only (R230). -/
def replyValidate (s : State) : State :=
  if (checkFrame (replyBytes s) (expectedLength s)).ok then
    finish resOk { s with checks := checkFrame (replyBytes s) (expectedLength s)
                          liveTs := s.now, liveValid := true }
  else finish resMalformed { s with checks := checkFrame (replyBytes s) (expectedLength s) }

/-- The reply capture's verdict once this step's bytes are taken (R229). -/
def replyVerdict (s : State) : State :=
  if s.rcount.toNat = replyLength s then replyValidate s
  else if s.timing.tReplyMs ≤ elapsed s s.t0 then finish resReplyTimeout s
  else s

/-- Phase REPLY_WAIT (R229). -/
def replyWaitStep (s : State) : State := replyVerdict (replyConsume s)

end Sys2Proof.Machine
end

