-- ==== Sys2Proof/Machine/Registers.lean ====
section
/-! DEFINITION. The client register space (10_state R47 to R61): the addresses, a byte read of any
address, and a byte write of any address but CMD. -/

namespace Sys2Proof.Machine

/-- CMD (R48). -/
abbrev regCmd : Addr := 0x000#12
/-- STATUS (R49). -/
abbrev regStatus : Addr := 0x001#12
/-- RESULT (R50). -/
abbrev regResult : Addr := 0x002#12
/-- CHECKS (R51). -/
abbrev regChecks : Addr := 0x003#12
/-- ECHO (R52). -/
abbrev regEcho : Addr := 0x004#12
/-- PLEN (R53). -/
abbrev regPlen : Addr := 0x005#12
/-- EXPLEN (R54). -/
abbrev regExplen : Addr := 0x006#12
/-- ADDR (R55). -/
abbrev regAddr : Addr := 0x007#12
/-- FLEN_LO (R56). -/
abbrev regFlenLo : Addr := 0x008#12
/-- FLEN_HI (R56). -/
abbrev regFlenHi : Addr := 0x009#12
/-- RCOUNT_LO (R57). -/
abbrev regRcountLo : Addr := 0x00A#12
/-- RCOUNT_HI (R57). -/
abbrev regRcountHi : Addr := 0x00B#12
/-- ECOUNT_LO (R58). -/
abbrev regEcountLo : Addr := 0x00C#12
/-- ECOUNT_HI (R58). -/
abbrev regEcountHi : Addr := 0x00D#12
/-- PHASE (R59). -/
abbrev regPhase : Addr := 0x00E#12
/-- LIVE_TS byte 0, the least significant (R60). -/
abbrev regLiveTs0 : Addr := 0x010#12
/-- LIVE_TS byte 1 (R60). -/
abbrev regLiveTs1 : Addr := 0x011#12
/-- LIVE_TS byte 2 (R60). -/
abbrev regLiveTs2 : Addr := 0x012#12
/-- LIVE_TS byte 3 (R60). -/
abbrev regLiveTs3 : Addr := 0x013#12

/-- `MemRead(a, 1)`: the current value, with no side effect (R46, R86). CMD and the reserved
addresses read 0x00 (R48, R61): neither has a row here and neither is a buffer byte. -/
def readRegister (s : State) (a : Addr) : Byte :=
  if a = regStatus then statusByte s
  else if a = regResult then resultByte s
  else if a = regChecks then checksByte s.checks
  else if a = regEcho then echoByte s.echo
  else if a = regPlen then s.plen
  else if a = regExplen then s.explen
  else if a = regAddr then s.addr
  else if a = regFlenLo then countLow s.flen
  else if a = regFlenHi then countHigh s.flen
  else if a = regRcountLo then countLow s.rcount
  else if a = regRcountHi then countHigh s.rcount
  else if a = regEcountLo then countLow s.ecount
  else if a = regEcountHi then countHigh s.ecount
  else if a = regPhase then phaseByte s
  else if a = regLiveTs0 then timeByte s.liveTs 0
  else if a = regLiveTs1 then timeByte s.liveTs 1
  else if a = regLiveTs2 then timeByte s.liveTs 2
  else if a = regLiveTs3 then timeByte s.liveTs 3
  else readBuffer s a.toNat

/-- `a` is a byte of PBUF or FBUF, the buffers the client may write (R47). -/
def isClientBuffer (a : Nat) : Bool := inWindow pbufBase pbufSize a || inWindow fbufBase fbufSize a

/-- `MemWrite(a, 1, v)` while IDLE, for any address but CMD: an operand register or a byte of PBUF or
FBUF takes the value (R86); read-only registers and reserved addresses ignore it (R61). -/
def storeOperand (a : Addr) (v : Byte) (s : State) : State :=
  if a = regPlen then { s with plen := v }
  else if a = regExplen then { s with explen := v }
  else if a = regAddr then { s with addr := v }
  else if a = regFlenLo then { s with flen := countOf (countHigh s.flen) v }
  else if a = regFlenHi then { s with flen := countOf v (countLow s.flen) }
  else if isClientBuffer a.toNat then writeBuffer s a.toNat v
  else s

/-- `MemWrite(a, 1, v)` for any address but CMD: while BUSY it changes nothing (R45, R61). -/
def writeOperand (a : Addr) (v : Byte) (s : State) : State :=
  if s.busy then s else storeOperand a v s

/-- Byte writes of `bs` to `a`, `a + 1`, ... in order (R84; `WB` of R127). -/
def writeOperands (a : Addr) (bs : List Byte) (s : State) : State :=
  match bs with
  | [] => s
  | b :: rest => writeOperands (a + 1#12) rest (writeOperand a b s)

end Sys2Proof.Machine
end

