-- ==== Sys2Proof/Machine/Client.lean ====
section
/-! DEFINITION. The payload rows of the opcode table (44_payloads R260 to R275): what the client does
to send each request, and what it does with each acknowledgement. -/

namespace Sys2Proof.Machine

/-! ### Requests -/

/-- The register writes of `SEND p EXPECT e` before the command (R128). -/
def writeRequest (p : List Byte) (e : Byte) (s : State) : State :=
  writeOperand regExplen e (writeOperand regPlen (BitVec.ofNat 8 p.length)
    (writeOperands (BitVec.ofNat 12 pbufBase) p s))

/-- The client awaits the reply to a request. -/
def awaitReply (i : Instr) (s : State) : State :=
  { s with client := { s.client with pending := some i, outcome := .undecided } }

/-- REPLY_LEN(request), the value the client writes to EXPLEN (R14, R267). The rows that are no request
have no reply length; no meaning asks for theirs. -/
def replyLenOf (p : Config.ReplyLen) : Instr → Byte
  | .off => p.off
  | .heatOn _ => p.heatOn
  | .ventOn _ => p.ventOn
  | .check _ => p.check
  | .queryFlags => p.flags
  | .queryDrive => p.drive
  | .querySensors => p.sensors
  | .queryCounters => p.counters
  | .queryState => p.state
  | .encode | .validate | .ensureAwake | .transact | .drain
  | .offAck | .heatOnAck _ | .ventOnAck _ | .checkAck | .queryAck => 0x00#8

/-- `SEND` of R128 up to its command write: PBUF, PLEN, EXPLEN, then TRANSACT. The client polls in
later steps (log 13). -/
def sendRequest (i : Instr) (s : State) : State :=
  awaitReply i (writeTransact (writeRequest (encode i) (replyLenOf s.params.replyLen i) s))

/-- OFF: payload 10 (R261). -/
def execOff (s : State) : Host.Outcome State Fault Refusal :=
  .next (sendRequest .off s)

/-- HEAT_ON: payload 21 minutes (R262). -/
def execHeatOn (minutes : Byte) (s : State) : Host.Outcome State Fault Refusal :=
  .next (sendRequest (.heatOn minutes) s)

/-- VENT_ON: payload 22 minutes (R263). -/
def execVentOn (minutes : Byte) (s : State) : Host.Outcome State Fault Refusal :=
  .next (sendRequest (.ventOn minutes) s)

/-- CHECK: payload 44 code 00 (R265). -/
def execCheck (code : Byte) (s : State) : Host.Outcome State Fault Refusal :=
  .next (sendRequest (.check code) s)

/-- QUERY_FLAGS: payload 50 03 (R266). -/
def execQueryFlags (s : State) : Host.Outcome State Fault Refusal :=
  .next (sendRequest .queryFlags s)

/-- QUERY_DRIVE: payload 50 04 (R266). -/
def execQueryDrive (s : State) : Host.Outcome State Fault Refusal :=
  .next (sendRequest .queryDrive s)

/-- QUERY_SENSORS: payload 50 05 (R266). -/
def execQuerySensors (s : State) : Host.Outcome State Fault Refusal :=
  .next (sendRequest .querySensors s)

/-- QUERY_COUNTERS: payload 50 06 (R266). -/
def execQueryCounters (s : State) : Host.Outcome State Fault Refusal :=
  .next (sendRequest .queryCounters s)

/-- QUERY_STATE: payload 50 07 (R266). -/
def execQueryState (s : State) : Host.Outcome State Fault Refusal :=
  .next (sendRequest .queryState s)

/-! ### Acknowledgements -/

/-- The awaited reply is settled with an outcome. -/
def settleReply (o : ClientOutcome) (s : State) : State :=
  { s with client := { s.client with pending := none, outcome := o } }

/-- `CommandNotAcknowledged`: nothing else changes (R264, R268). -/
def notAcknowledged (s : State) : State := settleReply .notAcknowledged s

/-- The acknowledgement test passed, and the session becomes `x` (R268). -/
def confirmSession (x : Session) (s : State) : State :=
  { settleReply .confirmed s with client := { (settleReply .confirmed s).client with session := x } }

/-- The session a confirmed HEAT_ON or VENT_ON sets: `minutes × 60 s` (R268). -/
def sessionOf (m : Mode) (minutes : Byte) : Session :=
  { mode := m, remaining := minutes.toNat * 60 }

/-- A TRANSACT has returned OK, and no other command has been written since: the client has a reply to
test (R264, R302). -/
def transactOk (s : State) : Bool :=
  !s.busy && s.done && decide (s.res = resOk) && decide (s.lastOp = 0x4#4)

/-- The reply's payload begins with the bytes of an acknowledgement row (R260 to R266). -/
def replyBegins (i : Instr) (s : State) : Bool :=
  decide ((replyPayload s).take (encode i).length = encode i)

/-- The acknowledgement test of a row. Without a TRANSACT that returned OK there is no reply to test, and
nothing changes (R264; DESIGN CHOICE, log 14). The test passes if the reply begins with the row's bytes and
the row acknowledges the awaited request, which then has the effect `accepted`. The whole test is one step: the
client's one-byte reads of STATUS, RESULT, EXPLEN and RBUF (R85, R46) are not separate events, so RST cannot
fall between them (DESIGN CHOICE, log 30). -/
def testAck (i : Instr) (acknowledges : Bool) (accepted : State) (s : State) : State :=
  if transactOk s then
    if replyBegins i s && acknowledges then accepted else notAcknowledged s
  else s

/-- OFF_ACK: it acknowledges OFF, and a successful Off clears the session (R261, R268). -/
def execOffAck (s : State) : Host.Outcome State Fault Refusal :=
  .next (testAck .offAck (decide (s.client.pending = some .off))
    (confirmSession { mode := .off, remaining := 0 } s) s)

/-- HEAT_ON_ACK: it acknowledges HEAT_ON of the same minutes (R262, R268). -/
def execHeatOnAck (minutes : Byte) (s : State) : Host.Outcome State Fault Refusal :=
  .next (testAck (.heatOnAck minutes) (decide (s.client.pending = some (.heatOn minutes)))
    (confirmSession (sessionOf .heating minutes) s) s)

/-- VENT_ON_ACK: it acknowledges VENT_ON of the same minutes (R263, R268). -/
def execVentOnAck (minutes : Byte) (s : State) : Host.Outcome State Fault Refusal :=
  .next (testAck (.ventOnAck minutes) (decide (s.client.pending = some (.ventOn minutes)))
    (confirmSession (sessionOf .venting minutes) s) s)

/-- The bytes of a CHECK reply after its first, on a client that tests them (R265; log 19). -/
def checkTailOk (code : Byte) (s : State) : Bool :=
  !s.params.checkTailTested || Config.checkTailAccepted code (replyPayload s).tail

/-- One keep-alive period is taken off the remaining time, "floored at zero" (R269). -/
def decrementSession (p : Config.Pace) (x : Session) : Session :=
  { x with remaining := x.remaining - p.keepAliveS }

/-- CHECK is awaited, and the reply's tail is accepted for its code (R265). -/
def checkAcknowledged (s : State) : Bool :=
  match s.client.pending with
  | some (.check code) => checkTailOk code s
  | _ => false

/-- CHECK_ACK: "a confirmed acknowledgement" of CHECK; the remaining time is decremented (R265, R269). R269 speaks
of the scheduler's CHECK alone; that a CHECK sent and acknowledged by payload rows, with no job of the scheduler,
is decremented too and is followed by no renewal test is the model's choice (DESIGN CHOICE, log 31). -/
def execCheckAck (s : State) : Host.Outcome State Fault Refusal :=
  .next (testAck .checkAck (checkAcknowledged s)
    (confirmSession (decrementSession s.pace s.client.session) s) s)

/-! ### Telemetry decode -/

/-- The `n` data bytes of a query's reply, from its data position; fewer if the reply ends (R267). -/
def replyData (pos n : Nat) (s : State) : List Byte := ((replyPayload s).drop pos).take n

/-- `physical = slope*raw + intercept` from two pairs (R273). -/
def interpolate (c : Config.Calibration) (raw : Rat) : Rat :=
  let slope := if c.x2 = c.x1 then Config.equalRawSlope c else (c.y2 - c.y1) / (c.x2 - c.x1)
  let intercept := c.y1 - slope * c.x1
  slope * raw + intercept

/-- A raw byte as a number. -/
def rawValue (b : Byte) : Rat := (b.toNat : Rat)

/-- The flags' bitfield byte, bit 0 heat-request to bit 7 nozzle-heating (R271). -/
def decodeFlags : List Byte → Option Byte
  | [b] => some b
  | _ => none

/-- Bit 0 of the flags, heat-request (R271). -/
def heatRequest (b : Byte) : Bool := b.getLsbD 0

/-- Bit 7 of the flags, nozzle-heating (R271). -/
def nozzleHeating (b : Byte) : Bool := b.getLsbD 7

/-- Glowplug drive, fuel-pump frequency raw × 2/100 Hz, combustion-fan drive (R272). The rule gives the
ranges 0 to 100, 0 to 5 Hz and 0 to 200 and is silent on a raw byte beyond them; that the same formula
applies there, with no clamp and no rejection, is the model's choice (DESIGN CHOICE, log 18). -/
def decodeDrive : List Byte → Option DriveLevels
  | [g, p, f] => some { glowplug := g.toNat, pumpHz := rawValue p * 2 / 100, fan := f.toNat }
  | _ => none

/-- Glowplug resistance, "forced to 0 when its raw byte is 0" (R273). -/
def decodeResistance (c : Config.Calibration) (raw : Byte) : Rat :=
  if raw = 0x00#8 then 0 else interpolate c (rawValue raw)

/-- Temperature, supply voltage and glowplug resistance (R273). -/
def decodeSensors (p : Config.ClientParams) : List Byte → Option Sensors
  | [t, v, r] => some { temperature := interpolate Config.temperatureCal (rawValue t)
                        voltage := interpolate p.voltageCal (rawValue v)
                        resistance := decodeResistance p.resistanceCal r }
  | _ => none

/-- `256 × hours-hi + hours-lo + minutes / 60` (R274). -/
def hoursOf (hi lo minutes : Byte) : Rat :=
  256 * rawValue hi + rawValue lo + rawValue minutes / 60

/-- The two hour counters and the big-endian start-cycle counter (R274). -/
def decodeCounters : List Byte → Option Counters
  | [h1, l1, m1, h2, l2, m2, c1, c0] =>
    some { workingHours := hoursOf h1 l1 m1, secondHours := hoursOf h2 l2 m2, startCycles := c1 ++ c0 }
  | _ => none

/-- The operating-state code, "stored opaquely" (R275). -/
def decodeState : List Byte → Option Byte
  | [b] => some b
  | _ => none

/-- A confirmed query whose snapshots become `x` (R276). -/
def confirmSnapshots (x : Snapshots) (s : State) : State :=
  { settleReply .confirmed s with client := { (settleReply .confirmed s).client with snapshots := x } }

/-- A snapshot is "fully overwritten atomically on a successful decode" and unchanged on a failed one
(R276). -/
def storeDecoded {α : Type} (d : Option α) (put : α → Snapshots → Snapshots) (s : State) : State :=
  match d with
  | some v => confirmSnapshots (put v s.client.snapshots) s
  | none => settleReply .undecodable s

/-- A query is awaited (R266). -/
def queryAwaited (s : State) : Bool :=
  match s.client.pending with
  | some .queryFlags | some .queryDrive | some .querySensors | some .queryCounters | some .queryState => true
  | _ => false

/-- The awaited query's data bytes are decoded (R271 to R276). -/
def decodeReply (s : State) : State :=
  match s.client.pending with
  | some .queryFlags =>
    storeDecoded (decodeFlags (replyData s.params.dataPos.flags 1 s)) (fun v x => { x with flags := some v }) s
  | some .queryDrive =>
    storeDecoded (decodeDrive (replyData s.params.dataPos.drive 3 s)) (fun v x => { x with drive := some v }) s
  | some .querySensors =>
    storeDecoded (decodeSensors s.params (replyData s.params.dataPos.sensors 3 s))
      (fun v x => { x with sensors := some v }) s
  | some .queryCounters =>
    storeDecoded (decodeCounters (replyData s.params.dataPos.counters 8 s))
      (fun v x => { x with counters := some v }) s
  | some .queryState =>
    storeDecoded (decodeState (replyData s.params.dataPos.state 1 s)) (fun v x => { x with state := some v }) s
  | _ => s

/-- QUERY_ACK: it acknowledges the awaited query, whose data bytes are decoded (R266, R271 to R276). -/
def execQueryAck (s : State) : Host.Outcome State Fault Refusal :=
  .next (testAck .queryAck (queryAwaited s) (decodeReply s) s)

end Sys2Proof.Machine
end

