-- ==== Sys2Proof/Machine/Wake.lean ====
section
/-! DEFINITION. The wake sequencer: ENSURE_AWAKE and its four phases (42_wake R201 to R206). -/

namespace Sys2Proof.Machine

/-- No wake is needed: a frame has been validated since reset and the time since then does not exceed
the hold-off window (R201). -/
def withinHoldoff (s : State) : Bool :=
  s.liveValid && decide (elapsed s s.liveTs ≤ s.timing.holdoffMs)

/-- The accept step of ENSURE_AWAKE (R201). -/
def ensureAwakeAccept (s : State) : State :=
  if withinHoldoff s then finish resOk { s with woke := false }
  else { s with woke := true, phase := phaseWakeDrain }

/-- ENSURE_AWAKE: the write of command word 0x03 (R43, R45, R201). It has no client operands. -/
def execEnsureAwake (s : State) : Host.Outcome State Fault Refusal :=
  .next (acceptCommand 0x3#4 true ensureAwakeAccept s)

/-- Phase WAKE_DRAIN (R202). -/
def wakeDrainStep (s : State) : State := { rxDiscardAll s with phase := phaseWakePulse }

/-- Phase WAKE_PULSE (R203). -/
def wakePulseStep (s : State) : State := { phyPulse s with phase := phaseWakeHold }

/-- Phase WAKE_HOLD: no timeout (R204, R155). -/
def wakeHoldStep (s : State) : State :=
  if s.txIdle then { s with t0 := s.now, phase := phaseWakeWait } else s

/-- Phase WAKE_WAIT: the byte test comes before the deadline test; one byte is taken (R205). -/
def wakeWaitStep (s : State) : State :=
  match s.rxq with
  | _ :: _ => finish resOk (rxTake 1 s)
  | [] => if s.timing.tWakeMs ≤ elapsed s s.t0 then finish resOk s else s

end Sys2Proof.Machine
end

