-- ==== Sys2Proof/Machine/Sequencer.lean ====
section
/-! DEFINITION. One step of SEQ (00_scope R19; 10_state R35), and the reset input (70_reset R340). -/

namespace Sys2Proof.Machine

/-- One step of SEQ, by its phase; IDLE has nothing to do (R35, R92). The codes 10 to 15 never come
here: `step` faults on them first (R124). -/
def seqStep (s : State) : State :=
  if s.phase = phaseWakeDrain then wakeDrainStep s
  else if s.phase = phaseWakePulse then wakePulseStep s
  else if s.phase = phaseWakeHold then wakeHoldStep s
  else if s.phase = phaseWakeWait then wakeWaitStep s
  else if s.phase = phaseTxDrain then txDrainStep s
  else if s.phase = phaseTxWrite then txWriteStep s
  else if s.phase = phaseTxFlush then txFlushStep s
  else if s.phase = phaseEchoWait then echoWaitStep s
  else if s.phase = phaseReplyWait then replyWaitStep s
  else s

/-- RST: every piece of block state takes its value of R62 in one step; the PHY, CLOCK and the client
are not reset (R340). The buffers and `t0` are drawn afresh (logs 1 and 2). -/
def assertReset (s : State) : State :=
  { s with
    phase := phaseIdle
    t0 := Config.t0AtReset (s.epoch + 1)
    plen := 0x00#8
    explen := 0x00#8
    addr := 0xF4#8
    flen := 0#9
    res := 0#3
    lastOp := 0#4
    checks := Checks.clear
    echo := Echo.clear
    rcount := 0#9
    ecount := 0#9
    done := false
    cmdErr := false
    woke := false
    liveValid := false
    liveTs := 0#32
    mem := []
    epoch := s.epoch + 1 }

end Sys2Proof.Machine
end

