-- ==== Sys2Proof/Machine/Dispatch.lean ====
section
/-! DEFINITION. The meaning of every instruction: one arm per row of the opcode table. -/

namespace Sys2Proof.Machine

def exec (i : Instr) (s : State) : Host.Outcome State Fault Refusal :=
  match i with
  | .encode => Sys2Proof.Machine.execEncode s
  | .validate => Sys2Proof.Machine.execValidate s
  | .ensureAwake => Sys2Proof.Machine.execEnsureAwake s
  | .transact => Sys2Proof.Machine.execTransact s
  | .drain => Sys2Proof.Machine.execDrain s
  | .off => Sys2Proof.Machine.execOff s
  | .offAck => Sys2Proof.Machine.execOffAck s
  | .heatOn minutes => Sys2Proof.Machine.execHeatOn minutes s
  | .heatOnAck minutes => Sys2Proof.Machine.execHeatOnAck minutes s
  | .ventOn minutes => Sys2Proof.Machine.execVentOn minutes s
  | .ventOnAck minutes => Sys2Proof.Machine.execVentOnAck minutes s
  | .check code => Sys2Proof.Machine.execCheck code s
  | .checkAck => Sys2Proof.Machine.execCheckAck s
  | .queryFlags => Sys2Proof.Machine.execQueryFlags s
  | .queryDrive => Sys2Proof.Machine.execQueryDrive s
  | .querySensors => Sys2Proof.Machine.execQuerySensors s
  | .queryCounters => Sys2Proof.Machine.execQueryCounters s
  | .queryState => Sys2Proof.Machine.execQueryState s
  | .queryAck => Sys2Proof.Machine.execQueryAck s

end Sys2Proof.Machine
end

