-- ==== Sys2Proof/Machine/Agent.lean ====
section
/-! DEFINITION. The CLIENT agent's own machine (44_payloads R264 to R277): the Command Controller's
operations, the keep-alive, the telemetry poller, and the tick that chooses among them. It acts on
the block only through `exec` and the register space. -/

namespace Sys2Proof.Machine

/-- The job in progress is replaced. -/
def setJob (j : Option Job) (s : State) : State := { s with client := { s.client with job := j } }

/-- The client starts an operation: its request, and how many attempts it has (R268, R276). -/
def startJob (request : Instr) (attempts : Nat) (s : State) : State :=
  setJob (some { request := request, attempts := attempts, stage := .wake }) s

/-- The job goes on to its next stage. -/
def advanceJob (j : Job) (stage : Stage) (s : State) : State := setJob (some { j with stage := stage }) s

/-! ### How an attempt ends -/

/-- The request a session is held by (R268, R269). -/
def sessionRequest (m : Mode) (minutes : Byte) : Option Instr :=
  match m with
  | .off => none
  | .heating => some (.heatOn minutes)
  | .venting => some (.ventOn minutes)

/-- The active session's command code (R265). -/
def sessionCode (m : Mode) : Option Byte :=
  match m with
  | .off => none
  | .heating => some 0x21#8
  | .venting => some 0x22#8

/-- Below the renewal threshold the original command is re-issued with minute argument 1, whatever the
original duration was (R269, R270; log 25). -/
def renewSession (s : State) : State :=
  if s.client.session.remaining < s.pace.renewBelowS then
    match sessionRequest s.client.session.mode s.pace.renewMinutes with
    | some i => startJob i s.pace.attempts s
    | none => s
  else s

/-- The operation is over, confirmed or with its attempts exhausted. Step (2) of the keep-alive follows a CHECK
in both cases: R269 states it with no condition on the CHECK's result (log 25). A CHECK sent by payload rows is
no operation of the scheduler and does not come here (log 31). -/
def endJob (j : Job) (s : State) : State :=
  match j.request with
  | .check _ => renewSession (setJob none s)
  | .encode | .validate | .ensureAwake | .transact | .drain
  | .off | .heatOn _ | .ventOn _ | .queryFlags | .queryDrive | .querySensors | .queryCounters | .queryState
  | .offAck | .heatOnAck _ | .ventOnAck _ | .checkAck | .queryAck => setJob none s

/-- The attempt failed: another attempt, or, when all are exhausted, the operation's end. The session stays as
it was (R268, R269). -/
def jobFailed (j : Job) (s : State) : State :=
  if j.attempts ≤ 1 then endJob j s
  else setJob (some { j with attempts := j.attempts - 1, stage := .wake }) s

/-- The end of an attempt whose reply was tested. -/
def settleJob (j : Job) (s : State) : State :=
  if s.client.outcome = .confirmed then endJob j s else jobFailed j s

/-- TRANSACT returned OK: the reply payload is an acknowledgement, tested by its own row, or is none
(R260, R264). -/
def testReply (j : Job) (s : State) : Host.Outcome State Fault Refusal :=
  match decodePayload (replyPayload s) with
  | .ok i =>
    if i.isAck then andThen (exec i s) (fun t => .next (settleJob j t))
    else .next (settleJob j (notAcknowledged s))
  | .error _ => .next (settleJob j (notAcknowledged s))

/-- DONE is 1: a block error fails the attempt; the reply is tested if TRANSACT returned OK; DONE of another
command, one the client wrote beside its job, leaves no reply to test (R264, R277; log 16). The reads of STATUS
and RESULT are not separate events (DESIGN CHOICE, log 30). -/
def finishAttempt (j : Job) (s : State) : Host.Outcome State Fault Refusal :=
  if s.res ≠ resOk then .next (settleJob j (settleReply (.blockError s.res) s))
  else if s.lastOp = 0x4#4 then testReply j s
  else .next (settleJob j (settleReply .noReply s))

/-- One move of the client on its job: ENSURE_AWAKE, poll, the request, poll and test (R268; log 16).
It waits while the block is BUSY or DONE is 0. So a job whose operation RST abandons, IDLE with DONE 0, waits
until some command ends: the spec does not say what the client does then, and the model reads the polls of
R128 as `POLL` until DONE = 1 (DESIGN CHOICE, log 16). -/
def moveJob (j : Job) (s : State) : Host.Outcome State Fault Refusal :=
  match j.stage with
  | .wake =>
    if s.busy then .next s else andThen (exec .ensureAwake s) (fun t => .next (advanceJob j .wakeWait t))
  | .wakeWait => if s.done then .next (advanceJob j .send s) else .next s
  | .send =>
    if s.busy then .next s else andThen (exec j.request s) (fun t => .next (advanceJob j .replyWait t))
  | .replyWait => if s.done then finishAttempt j s else .next s

/-- The client's next move; with no job it has none. -/
def clientMove (s : State) : Host.Outcome State Fault Refusal :=
  match s.client.job with
  | some j => moveJob j s
  | none => .next s

/-! ### Calls and ticks -/

/-- The request of a Command Controller operation; the minute argument when unspecified is 1 (R268). -/
def callRequest (p : Config.Pace) : ClientCall → Instr
  | .heatOn m => .heatOn (m.getD p.defaultMinutes)
  | .ventOn m => .ventOn (m.getD p.defaultMinutes)
  | .off => .off

/-- HeatOn, VentOn, Off, "up to 3 attempts" (R268). A call while a job is in progress is a second
concurrent caller (R90; log 20). -/
def clientCall (c : ClientCall) (s : State) : Host.Outcome State Fault Refusal :=
  match s.client.job with
  | some _ => .fault .concurrentCaller
  | none => .next (startJob (callRequest s.pace c) s.pace.attempts s)

/-- The round robin's order (R276; log 17). -/
def Task.after : Task → Task
  | .keepAlive => .flags
  | .flags => .drive
  | .drive => .sensors
  | .sensors => .counters
  | .counters => .state
  | .state => .keepAlive

/-- The six tasks in round-robin order from one of them. -/
def Task.rotation (t : Task) : List Task :=
  [t, t.after, t.after.after, t.after.after.after, t.after.after.after.after,
   t.after.after.after.after.after]

/-- A task's period in milliseconds: flags, and most of the drive, sensors and state queries, share one
(R269, R276; log 7). -/
def taskPeriod (s : State) : Task → Nat
  | .keepAlive => s.pace.keepAliveS * 1000
  | .flags => s.pace.queryMs
  | .drive =>
    match s.params.ownPeriod with
    | .drive ms => ms
    | .nothing | .sensors _ | .state _ => s.pace.queryMs
  | .sensors =>
    match s.params.ownPeriod with
    | .sensors ms => ms
    | .nothing | .drive _ | .state _ => s.pace.queryMs
  | .counters => s.pace.countersMs
  | .state =>
    match s.params.ownPeriod with
    | .state ms => ms
    | .nothing | .drive _ | .sensors _ => s.pace.queryMs

/-- When a task last ran. -/
def LastRun.get (l : LastRun) : Task → Option Time
  | .keepAlive => l.keepAlive
  | .flags => l.flags
  | .drive => l.drive
  | .sensors => l.sensors
  | .counters => l.counters
  | .state => l.state

/-- A task ran at a time. -/
def LastRun.set (l : LastRun) (t : Task) (at' : Time) : LastRun :=
  match t with
  | .keepAlive => { l with keepAlive := some at' }
  | .flags => { l with flags := some at' }
  | .drive => { l with drive := some at' }
  | .sensors => { l with sensors := some at' }
  | .counters => { l with counters := some at' }
  | .state => { l with state := some at' }

/-- A task's request and attempts: CHECK of the active session's code, with the keep-alive's budget, or
a query, with one attempt (R265, R269, R276). A keep-alive has none while no session is active. -/
def taskRequest (s : State) : Task → Option (Instr × Nat)
  | .keepAlive =>
    match sessionCode s.client.session.mode with
    | some c => some (.check c, s.pace.attempts)
    | none => none
  | .flags => some (.queryFlags, 1)
  | .drive => some (.queryDrive, 1)
  | .sensors => some (.querySensors, 1)
  | .counters => some (.queryCounters, 1)
  | .state => some (.queryState, 1)

/-- The task's period has passed since it last ran (R269, R276; log 17). -/
def periodPassed (s : State) (t : Task) : Bool :=
  match s.client.lastRun.get t with
  | some at' => decide (taskPeriod s t ≤ elapsed s at')
  | none => true

/-- The task may run at this tick (R269, R276). -/
def taskDue (s : State) (t : Task) : Bool := (taskRequest s t).isSome && periodPassed s t

/-- The first due task in round-robin order (R276). -/
def chooseTask (s : State) : Option Task := (s.client.nextTask.rotation).find? (taskDue s)

/-- A task starts: its run is recorded and the round robin goes on after it. -/
def startTask (t : Task) (s : State) : State :=
  match taskRequest s t with
  | some (i, n) =>
    startJob i n { s with client := { s.client with nextTask := t.after,
                                                    lastRun := s.client.lastRun.set t s.now } }
  | none => s

/-- "each tick runs at most one task" (R276). -/
def tickTask (s : State) : State :=
  match chooseTask s with
  | some t => startTask t s
  | none => s

/-- The opportunistic drain "each tick may perform", if the block is IDLE (R221, R276). -/
def tickDrain (drain : Bool) (s : State) : State := if drain && !s.busy then writeDrain s else s

/-- The external tick (R276). A tick while a job is in progress is a concurrent tick (R90; log 20). -/
def clientTick (drain : Bool) (s : State) : Host.Outcome State Fault Refusal :=
  match s.client.job with
  | some _ => .fault .concurrentCaller
  | none => .next (tickTask (tickDrain drain s))

end Sys2Proof.Machine
end

