-- ==== Sys2Proof/Machine/Events.lean ====
section
/-! DEFINITION. What each atomic event does (20_memory R85, R91; 30_encoding R127; 40_transport R156;
60_exceptions R304), and where the machine finds its next instruction. -/

namespace Sys2Proof.Machine

/-- A client read returns the register's current value (R46, R86; log 12). -/
def clientRead (a : Addr) (s : State) : State := { s with reads := (a, readRegister s a) :: s.reads }

/-- `MemWrite(a, 1, v)`: a write to CMD is a command (R43, R45, R123), any other an operand write. -/
def clientWrite (a : Addr) (v : Byte) (s : State) : Host.Outcome State Fault Refusal :=
  if a = regCmd then
    match decodeCommand v with
    | .ok i => exec i s
    | .error _ => .next (illegalCommand v s)
  else .next (writeOperand a v s)

/-- The client sends a request or tests an acknowledgement of 44_payloads (log 23). While a job is in
progress this is the one client's own access, like a register access: it runs, and a request replaces the
awaited one; the spec gives no behaviour there (DESIGN CHOICE, log 20). -/
def clientPayload (bs : List Byte) (s : State) : Host.Outcome State Fault Refusal :=
  match decodePayload bs with
  | .ok i => exec i s
  | .error e => .refused (.notARow e)

/-- The PHY appends bytes to the tail of `rxq` (R152, R157). -/
def phyAppend (bs : List Byte) (s : State) : State := { s with rxq := s.rxq ++ bs }

/-- A byte the PHY has received meets the receive queue's depth (R14, R156; log 9). -/
def phyEnqueue (b : Byte) (s : State) : State :=
  if s.rxq.length < Config.rxqDepth then phyAppend [b] s
  else phyAppend (Config.rxqOverflow s.rxDraws s.rxq b).toList s

/-- A byte arrives on the line, with or without a receive error (R14, R159; log 9). -/
def phyReceive (b : Byte) (err : Bool) (s : State) : State :=
  let t := if err then
      match Config.phyRxError s.rxDraws b with
      | some v => phyEnqueue v s
      | none => s
    else phyEnqueue b s
  { t with rxDraws := s.rxDraws + 1 }

/-- The PHY removes bytes from `rxq`, which it must not (R156, R304). -/
def phyRemove (k : Nat) (s : State) : Host.Outcome State Fault Refusal :=
  if k = 0 ∨ s.rxq = [] then .next s else .fault .phyRemovedBytes

/-- CLOCK sets `now`, modulo 2^32, never backwards (R40, R127, R304; log 8). -/
def clockTo (ms : Nat) (s : State) : Host.Outcome State Fault Refusal :=
  if ms < s.now.toNat then .fault .clockBackwards else .next { s with now := BitVec.ofNat 32 ms }

/-- The events of the CLIENT agent and its callers: they keep the order of the client's program. -/
def Event.isClient : Event → Bool
  | .write _ _ | .read _ | .poll | .payload _ | .call _ | .tick _ | .client => true
  | .seq | .rx _ | .txIdle _ | .clockTo _ | .rst | .line _ _ | .phyRemove _ => false

/-- The first event of another agent, and the others in order. -/
def pullOther : List Event → Option (Event × List Event)
  | [] => none
  | e :: rest =>
    if e.isClient then
      match pullOther rest with
      | some (o, others) => some (o, e :: others)
      | none => none
    else some (e, rest)

/-- POLL reads STATUS; while DONE is 0 it stays, and the next event of another agent goes before it, or
SEQ takes a step when there is none (R127; log 22). -/
def clientPoll (s : State) : State :=
  let t := clientRead regStatus s
  if s.done then t
  else
    match pullOther s.inputs with
    | some (e, others) => { t with inputs := e :: .poll :: others }
    | none => { seqStep t with inputs := .poll :: s.inputs }

/-- One atomic event (R91). -/
def runEvent (e : Event) (s : State) : Host.Outcome State Fault Refusal :=
  match e with
  | .write a v => clientWrite a v s
  | .read a => .next (clientRead a s)
  | .poll => .next (clientPoll s)
  | .seq => .next (seqStep s)
  | .rx bs => .next (phyAppend bs s)
  | .txIdle b => .next { s with txIdle := b }
  | .clockTo ms => clockTo ms s
  | .rst => .next (assertReset s)
  | .payload bs => clientPayload bs s
  | .line b err => .next (phyReceive b err s)
  | .phyRemove k => phyRemove k s
  | .call c => clientCall c s
  | .tick drain => clientTick drain s
  | .client => clientMove s

/-- With no event pending SEQ goes on while BUSY, else the client's job does (log 4). -/
def idleMove (s : State) : Host.Outcome State Fault Refusal :=
  if s.busy then .next (seqStep s) else clientMove s

/-- A reserved RES, FERR or phase value (R124, R304). -/
def reservedFault (s : State) : Option Fault :=
  if 9 < s.phase.toNat then some .reservedPhase
  else if 4 < s.res.toNat then some .reservedResult
  else if 4 < s.checks.ferr.toNat then some .reservedFerr
  else none

/-- The event by which the client issues the bytes of an opcode-table word: a payload row's bytes are
a payload, anything else that is one byte is a write to CMD (log 26). -/
def issueEvent (bs : List Byte) : Event :=
  match bs with
  | [c] =>
    match decodePayload [c] with
    | .ok _ => .payload [c]
    | .error _ => .write regCmd c
  | _ => .payload bs

end Sys2Proof.Machine
end

