-- ==== Sys2Proof/Machine/Step.lean ====
section
/-! DEFINITION. One step of the machine: one atomic event of one agent (20_memory R91). -/

namespace Sys2Proof.Machine

/-- One step: a reserved encoding is a fault (R124, R304); else the next event happens; with none
pending, SEQ or the client goes on (log 4). -/
def step (s : State) : Host.Outcome State Fault Refusal :=
  match reservedFault s with
  | some f => .fault f
  | none =>
    match s.inputs with
    | e :: rest => runEvent e { s with inputs := rest }
    | [] => idleMove s

/-- The client issues an opcode-table word next: its event goes before all others (logs 5 and 26). -/
def State.withFetchWord (s : State) (nbits w : Nat) : State :=
  { s with inputs := issueEvent (tableBytes nbits w) :: s.inputs }

end Sys2Proof.Machine
end

