-- ==== Sys2Proof/Safety.lean ====
section
/-! DEFINITION. What a legal state of the machine is, in the terms claims use: the invariant of the
block's phases (10_state R35; 43_transact R227 to R233), and which faults come from outside. -/

namespace Sys2Proof.Machine

/-- An ENSURE_AWAKE is in progress (R35). -/
abbrev waking (s : State) : Prop := 1 ≤ s.phase.toNat ∧ s.phase.toNat ≤ 4

/-- A TRANSACT is in progress (R35). -/
abbrev transacting (s : State) : Prop := 5 ≤ s.phase.toNat

/-- What every reachable state of the machine satisfies. -/
structure Inv (s : State) : Prop where
  /-- No reserved phase (R124). -/
  phase_legal : s.phase.toNat ≤ 9
  /-- No reserved RES (R124). -/
  res_legal : s.res.toNat ≤ 4
  /-- No reserved FERR (R124). -/
  ferr_legal : s.checks.ferr.toNat ≤ 4
  /-- The memory is in canonical form. -/
  mem_wf : s.mem.wf
  /-- DONE is cleared at acceptance and set only by `finish` (R34, R42). -/
  busy_not_done : s.busy = true → s.done = false
  /-- The marker's value carries no meaning before the first success (R37). -/
  marker_clear : s.liveValid = false → s.liveTs = 0#32
  /-- An ENSURE_AWAKE in progress issues a pulse (R34, R201). -/
  waking_woke : waking s → s.woke = true
  /-- The operand ranges TRANSACT was accepted with (R43, R45). -/
  tx_operands : transacting s → payloadLength s ≤ 254 ∧ expectedLength s ≤ 254
  /-- FBUF holds the frame TRANSACT sends (R223, R45). -/
  tx_frame : transacting s →
    s.flen.toNat = payloadLength s + 3 ∧ frameBytes s = frame Config.addrOut (payload s)
  /-- CHECKS is clear until an operation ends (R43). -/
  busy_checks : s.busy = true → s.checks = Checks.clear
  /-- No echo byte is taken before ECHO_WAIT (R227). -/
  before_echo : s.busy = true → s.phase.toNat ≤ 7 → s.ecount = 0#9 ∧ s.echo = Echo.clear
  /-- ECHO_WAIT waits for fewer than FLEN bytes (R227). -/
  in_echo : s.phase = phaseEchoWait → s.ecount.toNat < s.flen.toNat ∧ s.echo.eshort = false
  /-- REPLY_WAIT follows echo success, and waits for fewer than M bytes (R227, R229). -/
  in_reply : s.phase = phaseReplyWait →
    s.ecount = s.flen ∧ s.echo = Echo.clear ∧ s.rcount.toNat < replyLength s
  /-- No reply byte is taken before REPLY_WAIT (R229). -/
  before_reply : s.busy = true → s.phase ≠ phaseReplyWait → s.rcount = 0#9
  /-- A session that is off has no time left (R268). -/
  session_off : s.client.session.mode = .off → s.client.session.remaining = 0

/-- The faults that only the environment's breach of a duty raises (R90, R304). -/
def Fault.fromEnvironment : Fault → Bool
  | .phyRemovedBytes | .clockBackwards | .concurrentCaller => true
  | .reservedPhase | .reservedResult | .reservedFerr => false

/-- The next event is RST. -/
def resetNext (s : State) : Bool := s.inputs.head? == some .rst

/-- A byte address outside the `n` bytes from `base`. -/
abbrev outside (base n a : Nat) : Prop := a < base ∨ base + n ≤ a

end Sys2Proof.Machine
end

