-- ==== Sys2Proof/Certificates/Slice0/Obligations.lean ====
section
/-! DEFINITION. The statements for the provers. Each docstring names the rules it rests on. -/

open Sys2Proof Sys2Proof.Machine

/-! ### Reset -/

/-- R62: the reset value of every piece of block state the spec gives one for. -/
def Obligations.ResetLeavesSpecValues : Prop :=
  State.reset.phase = phaseIdle ∧ State.reset.busy = false ∧ State.reset.done = false ∧
  State.reset.cmdErr = false ∧ State.reset.woke = false ∧ State.reset.liveValid = false ∧
  State.reset.liveTs = 0#32 ∧ State.reset.res = resOk ∧ State.reset.lastOp = 0#4 ∧
  checksByte State.reset.checks = 0x00#8 ∧ echoByte State.reset.echo = 0x00#8 ∧
  State.reset.rcount = 0#9 ∧ State.reset.ecount = 0#9 ∧ State.reset.plen = 0x00#8 ∧
  State.reset.explen = 0x00#8 ∧ State.reset.addr = 0xF4#8 ∧ State.reset.flen = 0#9

/-- The invariant holds at reset (rests on the model's own reset of the client, log 15). -/
def Obligations.ResetSatisfiesInvariant : Prop := Inv State.reset

/-- R340: RST gives every block register its reset value in one step, abandons the operation with DONE
at 0, and leaves the PHY, CLOCK and client alone. The buffers, `t0` and the model's `epoch` are not
constrained. -/
def Obligations.ResetInputClearsBlock : Prop :=
  ∀ (s : State) (rest : List Event), reservedFault s = none → s.inputs = .rst :: rest →
    ∃ t, step s = .next t ∧
      t = { s with phase := phaseIdle, t0 := t.t0, plen := 0x00#8, explen := 0x00#8, addr := 0xF4#8,
                   flen := 0#9, res := resOk, lastOp := 0#4, checks := Checks.clear, echo := Echo.clear,
                   rcount := 0#9, ecount := 0#9, done := false, cmdErr := false, woke := false,
                   liveValid := false, liveTs := 0#32, mem := t.mem, epoch := t.epoch, inputs := rest }

/-! ### Encodings -/

/-- R120, R261 to R266: words written out from the spec's encodings decode to their instructions. -/
def Obligations.SpecWordsDecode : Prop :=
  decodeTableWord 8 0b00000001 = some .encode ∧
  decodeTableWord 8 0b00000010 = some .validate ∧
  decodeTableWord 8 0b00000011 = some .ensureAwake ∧
  decodeTableWord 8 0b00000100 = some .transact ∧
  decodeTableWord 8 0b00000101 = some .drain ∧
  decodeTableWord 8 0b00010000 = some .off ∧
  decodeTableWord 16 0b0010000100000101 = some (.heatOn 5#8) ∧
  decodeTableWord 16 0b1010000100000101 = some (.heatOnAck 5#8) ∧
  decodeTableWord 24 0b010001000010000100000000 = some (.check 0x21#8) ∧
  decodeTableWord 16 0b0101000000000110 = some .queryCounters ∧
  decodeTableWord 8 0b11010000 = some .queryAck

/-- Every instruction's bytes, and the number the opcode table gives them, decode to it, at every value
of every operand. -/
def Obligations.EveryInstructionRoundTrips : Prop :=
  ∀ i : Instr, decode (encode i) = .ok i ∧
    decodeTableWord (8 * (encode i).length) (tableWord (encode i)) = some i

/-- R120, R121, R123: a byte is the command word of exactly the command it encodes, and every other byte
is illegal: nonzero reserved bits, or OP 0x0 or 0x6 to 0xF. -/
def Obligations.CommandWordsExact : Prop :=
  (∀ (c : Byte) (i : Instr), decodeCommand c = .ok i ↔ i.isCommand = true ∧ encode i = [c]) ∧
  (∀ c : Byte, (∃ e, decodeCommand c = .error e) ↔
    rsvField c ≠ 0#4 ∨ opField c = 0#4 ∨ 6 ≤ (opField c).toNat)

/-- R261 to R266: bytes that decode to a payload row begin with that row's bytes, and a request is the
whole payload. -/
def Obligations.DecodedPayloadsMatchTheirRow : Prop :=
  ∀ (bs : List Byte) (i : Instr), decodePayload bs = .ok i →
    i.isCommand = false ∧ ∃ tail, bs = encode i ++ tail ∧ (i.isRequest = true → tail = [])

/-- R260: an acknowledgement's first byte is the request code's with bit 0x80 set, and HEAT_ON and
VENT_ON are acknowledged with their own minutes. -/
def Obligations.AcknowledgementByteConvention : Prop :=
  (∀ m : Byte,
    (encode (.heatOnAck m)).head? = (encode (.heatOn m)).head?.map ackByte ∧
    (encode (.ventOnAck m)).head? = (encode (.ventOn m)).head?.map ackByte) ∧
  (∀ c : Byte, (encode .checkAck).head? = (encode (.check c)).head?.map ackByte) ∧
  (encode .offAck).head? = (encode .off).head?.map ackByte ∧
  ∀ q ∈ [Instr.queryFlags, .queryDrive, .querySensors, .queryCounters, .queryState],
    (encode .queryAck).head? = (encode q).head?.map ackByte

/-! ### Fetching and running -/

/-- R43, R91, R127, R129: a write to CMD whose byte decodes to a command runs that command, and a payload
that decodes runs its row, on the state the event has left; every other write is the client's byte write,
an illegal command word included; a SEQ event is one SEQ step; `rx` appends its bytes to `rxq`, `tx_idle` and
the clock take the event's value, a poll that finds DONE = 1 reads STATUS; and the client's moves, calls and
ticks are theirs. With no event left SEQ goes on while BUSY, else the client does. (The list of events, and
what happens when it is empty, are the model's own, logs 4, 8 and 23.)
R92, R352: a SEQ step while IDLE changes nothing at all. A move of the client with no job changes nothing (the
model's own, log 4). -/
def Obligations.StepRunsDecodedInstruction : Prop :=
  (∀ (s : State) (rest : List Event), reservedFault s = none →
    (∀ (c : Byte) (i : Instr), s.inputs = .write regCmd c :: rest → decodeCommand c = .ok i →
      step s = exec i { s with inputs := rest }) ∧
    (∀ (bs : List Byte) (i : Instr), s.inputs = .payload bs :: rest → decodePayload bs = .ok i →
      step s = exec i { s with inputs := rest }) ∧
    (∀ (a : Addr) (v : Byte), s.inputs = .write a v :: rest →
      step s = clientWrite a v { s with inputs := rest }) ∧
    (s.inputs = .seq :: rest → step s = .next (seqStep { s with inputs := rest })) ∧
    (∀ bs : List Byte, s.inputs = .rx bs :: rest →
      step s = .next { s with inputs := rest, rxq := s.rxq ++ bs }) ∧
    (∀ b : Bool, s.inputs = .txIdle b :: rest → step s = .next { s with inputs := rest, txIdle := b }) ∧
    (∀ ms : Nat, s.inputs = .clockTo ms :: rest → s.now.toNat ≤ ms →
      step s = .next { s with inputs := rest, now := BitVec.ofNat 32 ms }) ∧
    (s.inputs = .poll :: rest → s.done = true →
      step s = .next { s with inputs := rest, reads := (regStatus, readRegister s regStatus) :: s.reads }) ∧
    (s.inputs = .client :: rest → step s = clientMove { s with inputs := rest }) ∧
    (∀ c : ClientCall, s.inputs = .call c :: rest → step s = clientCall c { s with inputs := rest }) ∧
    (∀ d : Bool, s.inputs = .tick d :: rest → step s = clientTick d { s with inputs := rest }) ∧
    (s.inputs = [] → s.busy = true → step s = .next (seqStep s)) ∧
    (s.inputs = [] → s.busy = false → step s = clientMove s)) ∧
  ∀ s : State,
    (s.busy = false → seqStep s = s) ∧
    (s.client.job = none → clientMove s = .next s)

/-- The word of any instruction, placed where the client issues the next one, is run by the next step. (The
place and the numbering of the word are the model's, logs 5 and 26.) -/
def Obligations.StepRunsIssuedTableWord : Prop :=
  ∀ (s : State) (i : Instr), reservedFault s = none →
    step (s.withFetchWord (8 * (encode i).length) (tableWord (encode i))) = exec i s

/-! ### Command acceptance -/

/-- R43, R123: an illegal command word written while IDLE is refused and changes no other state. -/
def Obligations.IllegalCommandWordRefused : Prop :=
  ∀ (s : State) (c : Byte), s.busy = false →
    (rsvField c ≠ 0#4 ∨ opField c = 0#4 ∨ 6 ≤ (opField c).toNat) →
    clientWrite regCmd c s =
      .next { s with lastOp := opField c, res := resRefused, done := true, cmdErr := true }

/-- R43, R53, R54, R56: a legal OP whose operands are out of range is refused the same way. -/
def Obligations.OutOfRangeOperandsRefused : Prop :=
  ∀ s : State, s.busy = false →
    (s.plen = 255#8 →
      exec .encode s =
        .next { s with lastOp := 1#4, res := resRefused, done := true, cmdErr := true }) ∧
    (s.explen = 255#8 ∨ 257 < s.flen.toNat →
      exec .validate s =
        .next { s with lastOp := 2#4, res := resRefused, done := true, cmdErr := true }) ∧
    (s.plen = 255#8 ∨ s.explen = 255#8 →
      exec .transact s =
        .next { s with lastOp := 4#4, res := resRefused, done := true, cmdErr := true })

/-- R45: any byte written to CMD while BUSY sets CMD_ERR and changes nothing else; a write to any other
address while BUSY changes nothing. -/
def Obligations.WritesWhileBusyAreDropped : Prop :=
  ∀ (s : State) (v : Byte), s.busy = true →
    clientWrite regCmd v s = .next { s with cmdErr := true } ∧
    ∀ a : Addr, a ≠ regCmd → clientWrite a v s = .next s

/-! ### The client register space -/

/-- R53 to R56: a write to an operand register while IDLE stores the value and changes nothing else;
FLEN_HI keeps bit 0 only. -/
def Obligations.OperandRegisterWriteStores : Prop :=
  ∀ (s : State) (v : Byte), s.busy = false →
    clientWrite regPlen v s = .next { s with plen := v } ∧
    clientWrite regExplen v s = .next { s with explen := v } ∧
    clientWrite regAddr v s = .next { s with addr := v } ∧
    clientWrite regFlenLo v s =
      .next { s with flen := BitVec.ofNat 9 (s.flen.toNat / 256 * 256 + v.toNat) } ∧
    clientWrite regFlenHi v s =
      .next { s with flen := BitVec.ofNat 9 (v.toNat % 2 * 256 + s.flen.toNat % 256) }

/-- R36, R86: a write to a byte of PBUF or FBUF while IDLE is read back there, and every other address
reads as before. -/
def Obligations.BufferWriteStoresOneByte : Prop :=
  ∀ (s : State) (a : Addr) (v : Byte), s.busy = false → isClientBuffer a.toNat = true →
    ∃ t, clientWrite a v s = .next t ∧ t = { s with mem := t.mem } ∧ readRegister t a = v ∧
      ∀ b : Addr, b ≠ a → readRegister t b = readRegister s b

/-- R61: writes to read-only registers and to reserved addresses are ignored, CMD and the reserved
addresses read 0x00, and no access faults. -/
def Obligations.ReadOnlyAndReservedAddresses : Prop :=
  (∀ (s : State) (a : Addr) (v : Byte), a ≠ regCmd →
    a ∉ [regPlen, regExplen, regAddr, regFlenLo, regFlenHi] → isClientBuffer a.toNat = false →
    clientWrite a v s = .next s) ∧
  (∀ (s : State) (a : Addr),
    (a = regCmd ∨ a = 0x00F#12 ∨ (0x014 ≤ a.toNat ∧ a.toNat ≤ 0x0FF) ∨
      (0x1FE ≤ a.toNat ∧ a.toNat ≤ 0x1FF) ∨ (0x301 ≤ a.toNat ∧ a.toNat ≤ 0x3FF) ∨ 0x501 ≤ a.toNat) →
    readRegister s a = 0x00#8) ∧
  (∀ (s : State) (a : Addr) (v : Byte),
    (∃ t, clientWrite a v s = .next t) ∧ ∃ t, runEvent (.read a) s = .next t)

/-- R46, R86: a client read returns the register's value and has no side effect. (What was read is recorded
in the model's own list `reads`, log 12.) -/
def Obligations.ReadReturnsValueWithoutSideEffect : Prop :=
  ∀ (s : State) (a : Addr) (rest : List Event), reservedFault s = none → s.inputs = .read a :: rest →
    step s = .next { s with inputs := rest, reads := (a, readRegister s a) :: s.reads }

/-- R49 to R52, R56 to R60: the bits of the status, result and diagnostic registers, the two bytes of
the counts, and LIVE_TS, little-endian. R36, R46, R53 to R55: PLEN, EXPLEN and ADDR read as their values, and
every byte of the three buffers as the buffer's byte. -/
def Obligations.RegisterBitLayout : Prop :=
  ∀ s : State,
    (readRegister s regStatus).toNat = s.busy.toNat + 2 * s.done.toNat + 4 * s.cmdErr.toNat +
      8 * s.woke.toNat + 16 * s.liveValid.toNat ∧
    (readRegister s regResult).toNat = 16 * s.lastOp.toNat + s.res.toNat ∧
    (readRegister s regChecks).toNat = s.checks.countOk.toNat + 2 * s.checks.addrOk.toNat +
      4 * s.checks.lenOk.toNat + 8 * s.checks.csumOk.toNat + 16 * s.checks.ferr.toNat ∧
    (readRegister s regEcho).toNat = s.echo.eshort.toNat + 2 * s.echo.ediff.toNat ∧
    (readRegister s regPhase).toNat = s.phase.toNat ∧
    (readRegister s regFlenLo).toNat + 256 * (readRegister s regFlenHi).toNat = s.flen.toNat ∧
    (readRegister s regRcountLo).toNat + 256 * (readRegister s regRcountHi).toNat = s.rcount.toNat ∧
    (readRegister s regEcountLo).toNat + 256 * (readRegister s regEcountHi).toNat = s.ecount.toNat ∧
    (readRegister s regLiveTs0).toNat + 256 * (readRegister s regLiveTs1).toNat +
      65536 * (readRegister s regLiveTs2).toNat + 16777216 * (readRegister s regLiveTs3).toNat =
      s.liveTs.toNat ∧
    readRegister s regPlen = s.plen ∧ readRegister s regExplen = s.explen ∧
    readRegister s regAddr = s.addr ∧
    ∀ a : Addr, (0x100 ≤ a.toNat ∧ a.toNat ≤ 0x1FD) ∨ (0x200 ≤ a.toNat ∧ a.toNat ≤ 0x300) ∨
        (0x400 ≤ a.toNat ∧ a.toNat ≤ 0x500) →
      readRegister s a = readBuffer s a.toNat

/-! ### Frames and checks -/

/-- R110 to R113: a frame is address, length byte n + 1, payload, checksum, n + 3 bytes long, and its
last byte is the XOR of the bytes before it, so that all its bytes XOR to 0x00. -/
def Obligations.FrameLayout : Prop :=
  ∀ (a : Byte) (p : List Byte), p.length ≤ 254 →
    (frame a p).length = p.length + 3 ∧ (frame a p)[0]? = some a ∧
    ((frame a p)[1]?.map BitVec.toNat) = some (p.length + 1) ∧
    ((frame a p).drop 2).take p.length = p ∧
    (frame a p).getLast? = some (xorFold (frame a p).dropLast) ∧ xorFold (frame a p) = 0x00#8

/-- R173: what each of the four checks and FERR mean, for any bytes and any expected length. -/
def Obligations.FrameChecksMeanTheRule : Prop :=
  ∀ (f : List Byte) (e : Nat),
    ((checkFrame f e).countOk = true ↔ f.length = e + 3) ∧
    ((checkFrame f e).addrOk = true ↔ f[0]? = some 0x4F#8) ∧
    ((checkFrame f e).lenOk = true ↔ ∃ l, f[1]? = some l ∧ l.toNat + 2 = f.length) ∧
    ((checkFrame f e).csumOk = true ↔
      1 ≤ f.length ∧ f[f.length - 1]? = some (xorFold (f.take (f.length - 1)))) ∧
    ((checkFrame f e).ferr = ferrCount ↔ (checkFrame f e).countOk = false) ∧
    ((checkFrame f e).ferr = ferrAddress ↔
      (checkFrame f e).countOk = true ∧ (checkFrame f e).addrOk = false) ∧
    ((checkFrame f e).ferr = ferrLength ↔
      (checkFrame f e).countOk = true ∧ (checkFrame f e).addrOk = true ∧
      (checkFrame f e).lenOk = false) ∧
    ((checkFrame f e).ferr = ferrChecksum ↔
      (checkFrame f e).countOk = true ∧ (checkFrame f e).addrOk = true ∧
      (checkFrame f e).lenOk = true ∧ (checkFrame f e).csumOk = false) ∧
    ((checkFrame f e).ferr = ferrNone ↔ (checkFrame f e).ok = true) ∧
    ((checkFrame f e).ok = true ↔
      (checkFrame f e).countOk = true ∧ (checkFrame f e).addrOk = true ∧
      (checkFrame f e).lenOk = true ∧ (checkFrame f e).csumOk = true)

/-- R177, 90_conflicts C1: a frame built with the host→client address validates and gives its payload
back; one built with the client→host address fails the address check. -/
def Obligations.FrameRoundTrip : Prop :=
  ∀ p : List Byte, p.length ≤ 254 →
    (checkFrame (frame 0x4F#8 p) p.length).ok = true ∧
    ((frame 0x4F#8 p).drop 2).take p.length = p ∧
    (checkFrame (frame 0xF4#8 p) p.length).ok = false ∧
    (checkFrame (frame 0xF4#8 p) p.length).ferr = ferrAddress

/-- R172 (b): changing any one bit of any byte of a frame fails the checksum check. -/
def Obligations.SingleBitFlipFailsChecksum : Prop :=
  ∀ (a : Byte) (p : List Byte) (e j k : Nat) (h : j < (frame a p).length), p.length ≤ 254 → k < 8 →
    (checkFrame ((frame a p).set j ((frame a p)[j] ^^^ BitVec.twoPow 8 k)) e).csumOk = false

/-- R172 (c): changing the same bit of two different bytes leaves the checksum check passing. -/
def Obligations.SameBitOfTwoBytesPassesChecksum : Prop :=
  ∀ (a : Byte) (p : List Byte) (e i j k : Nat) (hi : i < (frame a p).length)
    (hj : j < (frame a p).length), p.length ≤ 254 → k < 8 → i ≠ j →
    (checkFrame (((frame a p).set i ((frame a p)[i] ^^^ BitVec.twoPow 8 k)).set j
      ((frame a p)[j] ^^^ BitVec.twoPow 8 k)) e).csumOk = true

/-! ### ENCODE, VALIDATE, ENSURE_AWAKE, DRAIN -/

/-- R180, R43: ENCODE puts the frame of ADDR and the payload into FBUF and its length into FLEN, ends OK
in its accept step, and changes nothing else. -/
def Obligations.EncodeBuildsFrame : Prop :=
  ∀ s : State, s.busy = false → payloadLength s ≤ 254 →
    ∃ t, exec .encode s = .next t ∧
      frameBytes t = frame s.addr (payload s) ∧ t.flen.toNat = payloadLength s + 3 ∧
      t = { s with mem := t.mem, flen := t.flen, lastOp := 1#4, res := resOk, done := true,
                   cmdErr := false, checks := Checks.clear, echo := Echo.clear, ecount := 0#9,
                   rcount := 0#9 } ∧
      ∀ a, outside fbufBase (payloadLength s + 3) a → readBuffer t a = readBuffer s a

/-- R181, R176, R43: VALIDATE records the four checks of FBUF[0..FLEN-1] in CHECKS, ends OK or
MALFORMED, and changes nothing else: no buffer byte, not the marker. -/
def Obligations.ValidateReportsChecks : Prop :=
  ∀ s : State, s.busy = false → expectedLength s ≤ 254 → s.flen.toNat ≤ 257 →
    exec .validate s = .next { s with
      checks := checkFrame (frameBytes s) (expectedLength s)
      res := if (checkFrame (frameBytes s) (expectedLength s)).ok then resOk else resMalformed
      lastOp := 2#4, done := true, cmdErr := false, echo := Echo.clear, ecount := 0#9, rcount := 0#9 }

/-- R201, R43: within the hold-off window, its end included, ENSURE_AWAKE is a no-op that ends OK; past
it, or before any frame was validated, it starts a wake. -/
def Obligations.EnsureAwakeGate : Prop :=
  (∀ s : State, s.busy = false → s.liveValid = true → elapsed s s.liveTs ≤ s.timing.holdoffMs →
    exec .ensureAwake s = .next { s with
      woke := false, res := resOk, lastOp := 3#4, done := true, cmdErr := false,
      checks := Checks.clear, echo := Echo.clear, ecount := 0#9, rcount := 0#9 }) ∧
  (∀ s : State, s.busy = false → (s.liveValid = false ∨ s.timing.holdoffMs < elapsed s s.liveTs) →
    exec .ensureAwake s = .next { s with
      woke := true, phase := phaseWakeDrain, lastOp := 3#4, done := false, cmdErr := false,
      checks := Checks.clear, echo := Echo.clear, ecount := 0#9, rcount := 0#9 })

/-- R202 to R205: the four wake phases. The byte test comes before the deadline test, and one byte is
taken. -/
def Obligations.WakePhasesStep : Prop :=
  (∀ s : State, s.phase = phaseWakeDrain → seqStep s = { s with rxq := [], phase := phaseWakePulse }) ∧
  (∀ s : State, s.phase = phaseWakePulse →
    seqStep s = { s with phyOut := s.phyOut ++ [.pulse s.timing.pulseMs], txIdle := false,
                         phase := phaseWakeHold }) ∧
  (∀ s : State, s.phase = phaseWakeHold →
    seqStep s = if s.txIdle then { s with t0 := s.now, phase := phaseWakeWait } else s) ∧
  (∀ (s : State) (b : Byte) (rest : List Byte), s.phase = phaseWakeWait → s.rxq = b :: rest →
    seqStep s = { s with rxq := rest, res := resOk, done := true, phase := phaseIdle }) ∧
  (∀ s : State, s.phase = phaseWakeWait → s.rxq = [] →
    seqStep s = if s.timing.tWakeMs ≤ elapsed s s.t0
      then { s with res := resOk, done := true, phase := phaseIdle } else s)

/-- R221, R43: DRAIN empties `rxq`, ends OK in its accept step, and changes nothing else. -/
def Obligations.DrainEmptiesReceiveQueue : Prop :=
  ∀ s : State, s.busy = false →
    exec .drain s = .next { s with
      rxq := [], res := resOk, lastOp := 5#4, done := true, cmdErr := false,
      checks := Checks.clear, echo := Echo.clear, ecount := 0#9, rcount := 0#9 }

/-! ### TRANSACT -/

/-- R223, R43: an accepted TRANSACT puts the frame of 0xF4 and the payload into FBUF, its length into
FLEN, enters TX_DRAIN, and changes nothing else. -/
def Obligations.TransactBuildsClientFrame : Prop :=
  ∀ s : State, s.busy = false → payloadLength s ≤ 254 → expectedLength s ≤ 254 →
    ∃ t, exec .transact s = .next t ∧
      frameBytes t = frame 0xF4#8 (payload s) ∧ t.flen.toNat = payloadLength s + 3 ∧
      t = { s with mem := t.mem, flen := t.flen, phase := phaseTxDrain, lastOp := 4#4, done := false,
                   cmdErr := false, checks := Checks.clear, echo := Echo.clear, ecount := 0#9,
                   rcount := 0#9 } ∧
      ∀ a, outside fbufBase (payloadLength s + 3) a → readBuffer t a = readBuffer s a

/-- R224 to R226: TX_DRAIN, TX_WRITE and TX_FLUSH. -/
def Obligations.TransmitPhasesStep : Prop :=
  (∀ s : State, s.phase = phaseTxDrain → seqStep s = { s with rxq := [], phase := phaseTxWrite }) ∧
  (∀ s : State, s.phase = phaseTxWrite →
    seqStep s = { s with phyOut := s.phyOut ++ [.bytes (readBytes s fbufBase s.flen.toNat)],
                         txIdle := false, phase := phaseTxFlush }) ∧
  (∀ s : State, s.phase = phaseTxFlush →
    seqStep s = if s.txIdle then { s with t0 := s.now, phase := phaseEchoWait } else s)

/-- R227: one step of the echo detector. It takes at most the bytes still missing, compares each with
the byte sent at its position, keeps EDIFF sticky, and gives its verdict at FLEN bytes or at the
deadline, in that order. -/
def Obligations.EchoDetectorStep : Prop :=
  ∀ (s : State) (k : Nat) (differs : Bool), s.phase = phaseEchoWait →
    k = min s.rxq.length (s.flen.toNat - s.ecount.toNat) →
    (differs = true ↔
      s.echo.ediff = true ∨ ∃ j, j < k ∧ s.rxq[j]? ≠ some (readBuffer s (fbufBase + s.ecount.toNat + j))) →
    seqStep s =
      if s.ecount.toNat + k = s.flen.toNat then
        if differs then
          { s with rxq := s.rxq.drop k, ecount := s.flen, echo := { s.echo with ediff := true },
                   res := resEchoMismatch, done := true, phase := phaseIdle }
        else
          { s with rxq := s.rxq.drop k, ecount := s.flen, t0 := s.now, phase := phaseReplyWait }
      else if s.timing.tEchoMs ≤ elapsed s s.t0 then
        { s with rxq := s.rxq.drop k, ecount := BitVec.ofNat 9 (s.ecount.toNat + k),
                 echo := { eshort := true, ediff := differs },
                 res := resEchoMismatch, done := true, phase := phaseIdle }
      else
        { s with rxq := s.rxq.drop k, ecount := BitVec.ofNat 9 (s.ecount.toNat + k),
                 echo := { s.echo with ediff := differs } }

/-- R229: one step of the reply capture that does not complete the reply. It takes every byte present,
appends it to RBUF, and ends with REPLY_TIMEOUT only at the deadline. -/
def Obligations.PartialReplyStep : Prop :=
  ∀ s : State, s.phase = phaseReplyWait → expectedLength s ≤ 254 →
    s.rcount.toNat + s.rxq.length < replyLength s →
    ∃ t, seqStep s = t ∧
      readBytes t rbufBase (s.rcount.toNat + s.rxq.length) =
        readBytes s rbufBase s.rcount.toNat ++ s.rxq ∧
      (∀ a, outside (rbufBase + s.rcount.toNat) s.rxq.length a → readBuffer t a = readBuffer s a) ∧
      t.rcount.toNat = s.rcount.toNat + s.rxq.length ∧
      t = if s.timing.tReplyMs ≤ elapsed s s.t0
        then { s with mem := t.mem, rcount := t.rcount, rxq := [], res := resReplyTimeout,
                      done := true, phase := phaseIdle }
        else { s with mem := t.mem, rcount := t.rcount, rxq := [] }

/-- R229, R230: the step in which the reply is complete. It takes exactly EXPLEN + 3 bytes, leaves the
rest in `rxq`, validates RBUF, and writes the marker on success only. -/
def Obligations.CompleteReplyStep : Prop :=
  ∀ (s : State) (k : Nat), s.phase = phaseReplyWait → expectedLength s ≤ 254 →
    s.rcount.toNat + k = replyLength s → k ≤ s.rxq.length →
    ∃ t, seqStep s = t ∧
      readBytes t rbufBase (replyLength s) = readBytes s rbufBase s.rcount.toNat ++ s.rxq.take k ∧
      (∀ a, outside (rbufBase + s.rcount.toNat) k a → readBuffer t a = readBuffer s a) ∧
      t.rcount.toNat = replyLength s ∧
      t.checks = checkFrame (readBytes t rbufBase (replyLength s)) (expectedLength s) ∧
      t = if t.checks.ok
        then { s with mem := t.mem, rcount := t.rcount, rxq := s.rxq.drop k, checks := t.checks,
                      liveTs := s.now, liveValid := true, res := resOk, done := true,
                      phase := phaseIdle }
        else { s with mem := t.mem, rcount := t.rcount, rxq := s.rxq.drop k, checks := t.checks,
                      res := resMalformed, done := true, phase := phaseIdle }

/-- R231, R356: a wait never ends early without its bytes, and at its deadline one SEQ step ends it. -/
def Obligations.WaitsEndAtTheDeadline : Prop :=
  ∀ s : State,
    (s.phase = phaseWakeWait → s.rxq = [] →
      ((seqStep s).phase = phaseIdle ↔ s.timing.tWakeMs ≤ elapsed s s.t0)) ∧
    (s.phase = phaseEchoWait → s.ecount.toNat + s.rxq.length < s.flen.toNat →
      ((seqStep s).phase = phaseIdle ↔ s.timing.tEchoMs ≤ elapsed s s.t0)) ∧
    (s.phase = phaseReplyWait → s.rcount.toNat + s.rxq.length < replyLength s →
      ((seqStep s).phase = phaseIdle ↔ s.timing.tReplyMs ≤ elapsed s s.t0))

/-- R223: TRANSACT does not read ADDR, neither at acceptance nor in any phase: two states that differ in
ADDR only go on to states that differ in ADDR only. -/
def Obligations.TransactIgnoresAddr : Prop :=
  ∀ (s : State) (v : Byte),
    (∃ t, exec .transact s = .next t ∧ exec .transact { s with addr := v } = .next { t with addr := v }) ∧
    seqStep { s with addr := v } = { seqStep s with addr := v }

/-- R220, R233: on a healthy wire a TRANSACT of any payload ends OK with the reply's payload in RBUF and
the marker at the time of validation. The PHY loops the sent frame back and then appends the peer's
frame for any payload of the expected length. (The list of events is the model's own, log 4.) -/
def Obligations.HealthyTransactSucceeds : Prop :=
  ∀ (s : State) (q : List Byte), reservedFault s = none → s.busy = false →
    payloadLength s ≤ 254 → expectedLength s ≤ 254 → q.length = expectedLength s →
    ∃ t, Host.Core.run { State := State, Fault := Fault, Refusal := Refusal, step := step,
                         reset := State.reset } 9
        { s with inputs := [.write regCmd 0x04#8, .seq, .seq, .txIdle true,
                            .rx (frame 0xF4#8 (payload s)), .seq, .seq, .rx (frame 0x4F#8 q), .seq] } =
        .next t ∧
      t.phase = phaseIdle ∧ t.done = true ∧ t.res = resOk ∧ t.cmdErr = false ∧
      checksByte t.checks = 0x0F#8 ∧ echoByte t.echo = 0x00#8 ∧
      t.ecount.toNat = payloadLength s + 3 ∧ t.rcount.toNat = expectedLength s + 3 ∧
      replyPayload t = q ∧ t.liveTs = s.now ∧ t.liveValid = true ∧ t.rxq = [] ∧
      t.phyOut = s.phyOut ++ [.bytes (frame 0xF4#8 (payload s))]

/-! ### Rules of the whole machine -/

/-- Every step keeps the invariant: no reserved encoding, the memory in canonical form, DONE clear while
BUSY, FBUF the sent frame throughout a TRANSACT, the counts within the frame, the marker meaningless
only before the first success, the session's time zero when off. -/
def Obligations.EveryStepKeepsInvariant : Prop :=
  ∀ s t : State, Inv s → step s = .next t → Inv t

/-- R37: only a successful TRANSACT writes the liveness marker, in the step where the reply passes
validation; RST clears it. -/
def Obligations.MarkerWrittenOnlyBySuccess : Prop :=
  ∀ s t : State, step s = .next t → resetNext s = false →
    (t.liveTs ≠ s.liveTs ∨ t.liveValid ≠ s.liveValid) →
    s.phase = phaseReplyWait ∧ t.phase = phaseIdle ∧ t.done = true ∧ t.res = resOk ∧
    t.checks.ok = true ∧ t.liveTs = s.now ∧ t.liveValid = true

/-- R42, R340: an operation in progress ends with DONE = 1, by `finish`, or is abandoned by RST. -/
def Obligations.OperationEndsByFinishOrReset : Prop :=
  ∀ s t : State, step s = .next t → s.busy = true → t.busy = false →
    (resetNext s = true ∧ t.done = false) ∨ (resetNext s = false ∧ t.done = true)

/-- R95: while BUSY no step but RST changes an operand: PLEN, EXPLEN, ADDR, FLEN or a byte of PBUF or
FBUF. -/
def Obligations.OperandsFrozenWhileBusy : Prop :=
  ∀ s t : State, step s = .next t → s.busy = true → resetNext s = false →
    t.plen = s.plen ∧ t.explen = s.explen ∧ t.addr = s.addr ∧ t.flen = s.flen ∧
    ∀ a, isClientBuffer a = true → readBuffer t a = readBuffer s a

/-- R238: REPLY_WAIT is entered only from ECHO_WAIT, with every byte of the frame echoed and none
different. -/
def Obligations.ReplyWaitOnlyAfterEchoSuccess : Prop :=
  ∀ s t : State, step s = .next t → s.phase ≠ phaseReplyWait → t.phase = phaseReplyWait →
    s.phase = phaseEchoWait ∧ t.ecount = t.flen ∧ t.echo.ediff = false

/-- R155, R357: the holds on `tx_idle` have no timeout. In TX_FLUSH or WAKE_HOLD with `tx_idle` 0, as
long as the events to come hold neither a `tx_idle` report nor RST, any number of steps leaves the block
in that phase with DONE 0, whatever CLOCK, the peer and the client do. -/
def Obligations.HoldsAreStuckUntilTxIdle : Prop :=
  ∀ (n : Nat) (s t : State), s.phase = phaseTxFlush ∨ s.phase = phaseWakeHold → s.txIdle = false →
    s.done = false → Event.txIdle true ∉ s.inputs → Event.rst ∉ s.inputs →
    Host.Core.run { State := State, Fault := Fault, Refusal := Refusal, step := step,
                    reset := State.reset } n s = .next t →
    t.phase = s.phase ∧ t.done = false ∧ t.phyOut = s.phyOut

/-- R151, R154, R158: the block hands the PHY something only in TX_WRITE and WAKE_PULSE: one whole frame
from the client to the host, or one pulse; `tx_idle` becomes 0 in the same step. -/
def Obligations.WireOutputOnlyWholeFramesAndPulses : Prop :=
  ∀ s t : State, Inv s → step s = .next t → t.phyOut ≠ s.phyOut →
    t.txIdle = false ∧
    ((s.phase = phaseTxWrite ∧ t.phase = phaseTxFlush ∧
        t.phyOut = s.phyOut ++ [.bytes (frame 0xF4#8 (payload s))]) ∨
      (s.phase = phaseWakePulse ∧ t.phase = phaseWakeHold ∧
        t.phyOut = s.phyOut ++ [.pulse s.timing.pulseMs]))

/-- R39, R93, R152: `rxq` is first-in first-out. The event `rx` appends exactly its bytes at the tail; a byte
on the line appends at most one byte; any other step appends none and at most removes bytes from the head.
(What the event `line` appends is the model's account of the open parameters, log 9.) -/
def Obligations.ReceiveQueueIsFifo : Prop :=
  ∀ (s t : State), step s = .next t →
    (∀ bs, s.inputs.head? = some (.rx bs) → t.rxq = s.rxq ++ bs) ∧
    (∀ b err, s.inputs.head? = some (.line b err) → ∃ bs, bs.length ≤ 1 ∧ t.rxq = s.rxq ++ bs) ∧
    ((∀ bs, s.inputs.head? ≠ some (.rx bs)) → (∀ b err, s.inputs.head? ≠ some (.line b err)) →
      ∃ k, t.rxq = s.rxq.drop k)

/-- R40: only a CLOCK event changes `now`, and a step never changes a parameter (log 6). -/
def Obligations.OnlyClockChangesNow : Prop :=
  ∀ s t : State, step s = .next t →
    (t.now = s.now ∨ ∃ ms, s.inputs.head? = some (.clockTo ms) ∧ s.now.toNat ≤ ms ∧
      t.now = BitVec.ofNat 32 ms) ∧
    t.timing = s.timing ∧ t.pace = s.pace ∧ t.params = s.params

/-! ### Faults -/

/-- R124, R304: a state that holds a reserved phase, RES or FERR stops with a fault of its name. (That the
test comes before any event, and its order, are the model's choice, log 11.) -/
def Obligations.ReservedEncodingsFault : Prop :=
  ∀ s : State,
    (10 ≤ s.phase.toNat → step s = .fault .reservedPhase) ∧
    (s.phase.toNat ≤ 9 → 5 ≤ s.res.toNat → step s = .fault .reservedResult) ∧
    (s.phase.toNat ≤ 9 → s.res.toNat ≤ 4 → 5 ≤ s.checks.ferr.toNat → step s = .fault .reservedFerr)

/-- R304: the PHY removing bytes from `rxq` and CLOCK moving backwards are faults (as events of the model,
logs 8 and 9). -/
def Obligations.EnvironmentBreachesFault : Prop :=
  ∀ (s : State) (rest : List Event), reservedFault s = none →
    (∀ k, s.inputs = .phyRemove (k + 1) :: rest → s.rxq ≠ [] → step s = .fault .phyRemovedBytes) ∧
    (∀ ms, s.inputs = .clockTo ms :: rest → ms < s.now.toNat → step s = .fault .clockBackwards)

/-- R304: from a legal state the block's own rules reach no fault, and nothing is refused but a payload
that is no row of the opcode table (logs 20 and 23). -/
def Obligations.StopsComeOnlyFromOutside : Prop :=
  (∀ (s : State) (f : Fault), Inv s → step s = .fault f → f.fromEnvironment = true) ∧
  (∀ (s : State) (r : Refusal), step s = .refused r →
    ∃ (bs : List Byte) (rest : List Event) (e : DecodeError), s.inputs = .payload bs :: rest ∧
      decodePayload bs = .error e ∧ r = .notARow e)

/-! ### The client's requests and acknowledgements -/

/-- R261 to R263, R265 to R267, with R128: every request of the opcode table (OFF, HEAT_ON, VENT_ON,
CHECK and the five queries), sent while the block is IDLE, writes its payload to PBUF, its length to
PLEN and REPLY_LEN to EXPLEN, and starts a TRANSACT whose frame is that of 0xF4 and the payload. The
client awaits its reply, and nothing else changes. (That the writes and the command are one step is the
model's choice, log 13.) -/
def Obligations.RequestsSendTheirPayload : Prop :=
  ∀ (s : State) (i : Instr), i.isRequest = true → s.busy = false →
    (replyLenOf s.params.replyLen i).toNat ≤ 254 →
    ∃ t, exec i s = .next t ∧
      payload t = encode i ∧ frameBytes t = frame 0xF4#8 (encode i) ∧
      t.flen.toNat = (encode i).length + 3 ∧ t.plen.toNat = (encode i).length ∧
      t = { s with mem := t.mem, flen := t.flen, plen := t.plen,
                   explen := replyLenOf s.params.replyLen i, phase := phaseTxDrain, lastOp := 4#4,
                   done := false, cmdErr := false, checks := Checks.clear, echo := Echo.clear,
                   ecount := 0#9, rcount := 0#9,
                   client := { s.client with pending := some i, outcome := .undecided } } ∧
      ∀ a, outside pbufBase (encode i).length a → outside fbufBase ((encode i).length + 3) a →
        readBuffer t a = readBuffer s a

/-- R43, R45: the same requests sent while the block is BUSY set CMD_ERR and change nothing else of it;
sent with a REPLY_LEN of 255 they are refused as TRANSACT is. The client awaits a reply in both cases (log
13). -/
def Obligations.RequestsTheBlockTurnsAway : Prop :=
  ∀ (s : State) (i : Instr), i.isRequest = true →
    (s.busy = true →
      exec i s = .next { s with cmdErr := true,
                                client := { s.client with pending := some i, outcome := .undecided } }) ∧
    (s.busy = false → replyLenOf s.params.replyLen i = 255#8 →
      ∃ t, exec i s = .next t ∧ payload t = encode i ∧ t.plen.toNat = (encode i).length ∧
        t = { s with mem := t.mem, plen := t.plen, explen := 255#8, lastOp := 4#4, res := resRefused,
                     done := true, cmdErr := true,
                     client := { s.client with pending := some i, outcome := .undecided } } ∧
        ∀ a, outside pbufBase (encode i).length a → readBuffer t a = readBuffer s a)

/-- R261 to R264, R268: after a TRANSACT that returned OK, a reply that begins with the acknowledgement of the
awaited request sets the session, Off clears it, and nothing of the block changes. (That the reply is cut at
EXPLEN as it stands at the test is the model's choice, log 29; that the test is one step, log 30.) -/
def Obligations.AcknowledgedCommandSetsSession : Prop :=
  ∀ s : State, s.busy = false → s.done = true → s.res = resOk → s.lastOp = 4#4 →
    (s.client.pending = some .off → (replyPayload s).take 1 = [0x90#8] →
      exec .offAck s = .next { s with client := { s.client with
        pending := none, outcome := .confirmed, session := { mode := .off, remaining := 0 } } }) ∧
    (∀ m : Byte, s.client.pending = some (.heatOn m) → (replyPayload s).take 2 = [0xA1#8, m] →
      exec (.heatOnAck m) s = .next { s with client := { s.client with
        pending := none, outcome := .confirmed,
        session := { mode := .heating, remaining := m.toNat * 60 } } }) ∧
    (∀ m : Byte, s.client.pending = some (.ventOn m) → (replyPayload s).take 2 = [0xA2#8, m] →
      exec (.ventOnAck m) s = .next { s with client := { s.client with
        pending := none, outcome := .confirmed,
        session := { mode := .venting, remaining := m.toNat * 60 } } })

/-- R264, R302: after a TRANSACT that returned OK, an acknowledgement that the reply does not begin with, or
that does not match the awaited request, its argument included, is `CommandNotAcknowledged` and leaves the
session and the snapshots as they were; without a TRANSACT that returned OK, an acknowledgement row changes
nothing. (That it then changes nothing, and what it does when no request is awaited, are the model's
reading, log 14; the tail of a CHECK reply, log 19. That the reply is cut at EXPLEN as it stands at the test,
so that a reply which matched can fail once EXPLEN was written again after DONE, is the model's choice and not
R264's or R302's, log 29; that the test is one step, log 30.) -/
def Obligations.UnmatchedAcknowledgementChangesNothing : Prop :=
  (∀ (s : State) (i : Instr), i.isAck = true →
    (s.busy = true ∨ s.done = false ∨ s.res ≠ resOk ∨ s.lastOp ≠ 4#4) → exec i s = .next s) ∧
  ∀ (s t : State), s.busy = false → s.done = true → s.res = resOk → s.lastOp = 4#4 →
    t = { s with client := { s.client with pending := none, outcome := .notAcknowledged } } →
    (s.client.pending ≠ some .off ∨ (replyPayload s).take 1 ≠ [0x90#8] → exec .offAck s = .next t) ∧
    (∀ m, s.client.pending ≠ some (.heatOn m) ∨ (replyPayload s).take 2 ≠ [0xA1#8, m] →
      exec (.heatOnAck m) s = .next t) ∧
    (∀ m, s.client.pending ≠ some (.ventOn m) ∨ (replyPayload s).take 2 ≠ [0xA2#8, m] →
      exec (.ventOnAck m) s = .next t) ∧
    ((∀ c, s.client.pending ≠ some (.check c)) ∨ (replyPayload s).take 1 ≠ [0xC4#8] ∨
      (s.params.checkTailTested = true ∧
        ∀ c, s.client.pending = some (.check c) →
          Config.checkTailAccepted c (replyPayload s).tail = false) → exec .checkAck s = .next t) ∧
    ((∀ q ∈ [Instr.queryFlags, .queryDrive, .querySensors, .queryCounters, .queryState],
        s.client.pending ≠ some q) ∨ (replyPayload s).take 1 ≠ [0xD0#8] → exec .queryAck s = .next t)

/-- R265, R269: a confirmed CHECK takes one keep-alive period off the remaining time, floored at zero.
The premise on the tail is the open parameter of 93_implementation_defined 27 (log 19). (That the reply, its
first byte and its tail, is cut at EXPLEN as it stands at the test is the model's choice, log 29; that the test
is one step, log 30; that a CHECK sent by payload rows, with no job of the scheduler, is decremented too, log
31.) -/
def Obligations.ConfirmedCheckDecrementsSession : Prop :=
  ∀ (s : State) (c : Byte), s.busy = false → s.done = true → s.res = resOk → s.lastOp = 4#4 →
    s.client.pending = some (.check c) → (replyPayload s).take 1 = [0xC4#8] →
    (s.params.checkTailTested = false ∨ Config.checkTailAccepted c (replyPayload s).tail = true) →
    exec .checkAck s = .next { s with client := { s.client with
      pending := none, outcome := .confirmed,
      session := { s.client.session with
        remaining := s.client.session.remaining - s.pace.keepAliveS } } }

/-- R266, R271 to R276: the acknowledgement of the awaited query, at the head of the reply of a TRANSACT that
returned OK, overwrites that query's snapshot, and no other, with the values its data bytes give. The data's
position is the open parameter of 93_implementation_defined 26; that the data bytes stand together, the exact
arithmetic, and the same formulas beyond R272's ranges, are the model's choice (log 18); so is that the reply
and its data are cut at EXPLEN as it stands at the test (log 29) and that the test is one step (log 30). -/
def Obligations.AcknowledgedQueryStoresSnapshot : Prop :=
  ∀ s : State, s.busy = false → s.done = true → s.res = resOk → s.lastOp = 4#4 →
    (replyPayload s).take 1 = [0xD0#8] →
    (∀ b : Byte, s.client.pending = some .queryFlags → replyData s.params.dataPos.flags 1 s = [b] →
      exec .queryAck s = .next { s with client := { s.client with
        pending := none, outcome := .confirmed,
        snapshots := { s.client.snapshots with flags := some b } } }) ∧
    (∀ g p f : Byte, s.client.pending = some .queryDrive →
      replyData s.params.dataPos.drive 3 s = [g, p, f] →
      exec .queryAck s = .next { s with client := { s.client with
        pending := none, outcome := .confirmed,
        snapshots := { s.client.snapshots with
          drive := some ⟨g.toNat, (p.toNat : Rat) * 2 / 100, f.toNat⟩ } } }) ∧
    (∀ x v r : Byte, s.client.pending = some .querySensors →
      replyData s.params.dataPos.sensors 3 s = [x, v, r] →
      exec .queryAck s = .next { s with client := { s.client with
        pending := none, outcome := .confirmed,
        snapshots := { s.client.snapshots with
          sensors := some ⟨interpolate { x1 := 186, y1 := 18, x2 := 71, y2 := 72 } x.toNat,
            interpolate s.params.voltageCal v.toNat,
            if r = 0x00#8 then 0 else interpolate s.params.resistanceCal r.toNat⟩ } } }) ∧
    (∀ h1 l1 m1 h2 l2 m2 c1 c0 : Byte, s.client.pending = some .queryCounters →
      replyData s.params.dataPos.counters 8 s = [h1, l1, m1, h2, l2, m2, c1, c0] →
      exec .queryAck s = .next { s with client := { s.client with
        pending := none, outcome := .confirmed,
        snapshots := { s.client.snapshots with
          counters := some ⟨256 * (h1.toNat : Rat) + l1.toNat + (m1.toNat : Rat) / 60,
            256 * (h2.toNat : Rat) + l2.toNat + (m2.toNat : Rat) / 60, c1 ++ c0⟩ } } }) ∧
    (∀ b : Byte, s.client.pending = some .queryState → replyData s.params.dataPos.state 1 s = [b] →
      exec .queryAck s = .next { s with client := { s.client with
        pending := none, outcome := .confirmed,
        snapshots := { s.client.snapshots with state := some b } } })

/-- R273: the interpolation is the line through its two calibration points, and the temperature for raw
128 is within the source's tolerance. (Exact rational numbers are the model's choice, log 18.) -/
def Obligations.SensorInterpolation : Prop :=
  (∀ (c : Config.Calibration) (raw : Rat), c.x1 ≠ c.x2 →
    interpolate c c.x1 = c.y1 ∧ interpolate c c.x2 = c.y2 ∧
    interpolate c raw = (c.y2 - c.y1) / (c.x2 - c.x1) * raw +
      (c.y1 - (c.y2 - c.y1) / (c.x2 - c.x1) * c.x1)) ∧
  451 / 10 ≤ interpolate Config.temperatureCal 128 ∧ interpolate Config.temperatureCal 128 ≤ 453 / 10

/-- R264, R276, R277: an instruction changes a snapshot or the session only as a confirmed acknowledgement of
something awaited, after a TRANSACT that returned OK. -/
def Obligations.ClientStateChangesOnlyWhenConfirmed : Prop :=
  ∀ (s t : State) (i : Instr), exec i s = .next t →
    (t.client.snapshots ≠ s.client.snapshots ∨ t.client.session ≠ s.client.session) →
    i.isAck = true ∧ s.busy = false ∧ s.done = true ∧ s.res = resOk ∧ s.lastOp = 4#4 ∧
    s.client.pending ≠ none ∧ t.client.pending = none ∧ t.client.outcome = .confirmed

/-- R268, R269: an attempt that fails is followed by another while attempts are left; exhausting them ends the
operation; in both cases the session is as it was. R268, R276: a confirmed attempt ends the operation, whatever
attempts are left, and its end leaves the session that the acknowledgement has set. (After a CHECK that is over,
confirmed or exhausted, the renewal test follows: LowSessionIsRenewed says what then comes.) -/
def Obligations.FailedAttemptsLeaveSession : Prop :=
  ∀ (s : State) (j : Job),
    (s.client.outcome ≠ .confirmed →
      (settleJob j s).client.session = s.client.session ∧
      (1 < j.attempts → (settleJob j s).client.job =
        some { request := j.request, attempts := j.attempts - 1, stage := .wake }) ∧
      (j.attempts ≤ 1 → (∀ c, j.request ≠ .check c) → (settleJob j s).client.job = none)) ∧
    (s.client.outcome = .confirmed → (∀ c, j.request ≠ .check c) →
      (settleJob j s).client.job = none ∧ (settleJob j s).client.session = s.client.session)

/-- R268, R209, R264, R277: an attempt is ENSURE_AWAKE, then the request, then the reply's test. The client
waits while the block is BUSY before it writes a command, and while DONE is 0 after it. A block error fails
the attempt, and another follows while any is left. After OK, a reply that decodes to an acknowledgement is
tested by that row, and any other is `CommandNotAcknowledged`. (The division into moves, and DONE of another
command than TRANSACT, are the model's, log 16; so is that the reply tested is cut at EXPLEN as it stands at the
test, log 29, and that the client's reads of the poll and of the test are no steps of their own, log 30.)
What follows a last attempt of CHECK that fails is settleJob's renewal test, stated in LowSessionIsRenewed.
HeatOn, VentOn and Off start their request with the budget of attempts, 3 at reset; the minutes when
unspecified are the default, 1 at reset. A call or a tick during a job is a second concurrent caller, a fault
(R90, log 20). -/
def Obligations.AttemptWakesSendsAndTests : Prop :=
  (∀ (s : State) (j : Job), s.client.job = some j →
    (j.stage = .wake → s.busy = true → clientMove s = .next s) ∧
    (j.stage = .wake → s.busy = false → ∃ t, exec .ensureAwake s = .next t ∧
      clientMove s = .next { t with client := { t.client with job := some { j with stage := .wakeWait } } }) ∧
    (j.stage = .wakeWait → s.done = false → clientMove s = .next s) ∧
    (j.stage = .wakeWait → s.done = true →
      clientMove s = .next { s with client := { s.client with job := some { j with stage := .send } } }) ∧
    (j.stage = .send → s.busy = true → clientMove s = .next s) ∧
    (j.stage = .send → s.busy = false → ∃ t, exec j.request s = .next t ∧
      clientMove s = .next { t with client := { t.client with job := some { j with stage := .replyWait } } }) ∧
    (j.stage = .replyWait → s.done = false → clientMove s = .next s) ∧
    (j.stage = .replyWait → s.done = true → s.res ≠ resOk →
      clientMove s = .next (settleJob j { s with client :=
        { s.client with pending := none, outcome := .blockError s.res } })) ∧
    (j.stage = .replyWait → s.done = true → s.res ≠ resOk → j.attempts ≤ 1 →
      (∀ c, j.request ≠ .check c) → clientMove s = .next { s with client := { s.client with
        job := none, pending := none, outcome := .blockError s.res } }) ∧
    (j.stage = .replyWait → s.done = true → s.res ≠ resOk → 1 < j.attempts →
      clientMove s = .next { s with client := { s.client with
        job := some { request := j.request, attempts := j.attempts - 1, stage := .wake },
        pending := none, outcome := .blockError s.res } }) ∧
    (j.stage = .replyWait → s.done = true → s.res = resOk → s.lastOp = 4#4 →
      (∀ i, decodePayload (replyPayload s) = .ok i → i.isAck = true →
        ∃ t, exec i s = .next t ∧ clientMove s = .next (settleJob j t)) ∧
      ((∀ i, decodePayload (replyPayload s) = .ok i → i.isAck = false) →
        clientMove s = .next (settleJob j { s with client :=
          { s.client with pending := none, outcome := .notAcknowledged } }))) ∧
    (j.stage = .replyWait → s.done = true → s.res = resOk → s.lastOp ≠ 4#4 →
      clientMove s = .next (settleJob j { s with client :=
        { s.client with pending := none, outcome := .noReply } })) ∧
    (∀ c, clientCall c s = .fault .concurrentCaller) ∧
    (∀ d, clientTick d s = .fault .concurrentCaller)) ∧
  (∀ s : State, s.client.job = none →
    (∀ m, clientCall (.heatOn (some m)) s = .next { s with client := { s.client with
      job := some { request := .heatOn m, attempts := s.pace.attempts, stage := .wake } } }) ∧
    clientCall (.heatOn none) s = .next { s with client := { s.client with
      job := some { request := .heatOn s.pace.defaultMinutes, attempts := s.pace.attempts,
                    stage := .wake } } } ∧
    (∀ m, clientCall (.ventOn (some m)) s = .next { s with client := { s.client with
      job := some { request := .ventOn m, attempts := s.pace.attempts, stage := .wake } } }) ∧
    clientCall (.ventOn none) s = .next { s with client := { s.client with
      job := some { request := .ventOn s.pace.defaultMinutes, attempts := s.pace.attempts,
                    stage := .wake } } } ∧
    clientCall .off s = .next { s with client := { s.client with
      job := some { request := .off, attempts := s.pace.attempts, stage := .wake } } }) ∧
  State.reset.pace.attempts = 3 ∧ State.reset.pace.defaultMinutes = 1#8

/-- R269, 90_conflicts C3: when a CHECK is over, confirmed or with its attempts exhausted, and the remaining time
is below the renewal threshold, the session's own command is re-issued with the renewal minutes, and otherwise
nothing is. (R270 leaves open whether the one minute is a bug, and that the renewal comes in the same tick is
DEDUCED, log 25.) -/
def Obligations.LowSessionIsRenewed : Prop :=
  ∀ (s : State) (j : Job) (c : Byte), j.request = .check c →
    (s.client.outcome = .confirmed ∨ j.attempts ≤ 1) →
    (s.client.session.remaining < s.pace.renewBelowS → s.client.session.mode = .heating →
      (settleJob j s).client.job =
        some { request := .heatOn s.pace.renewMinutes, attempts := s.pace.attempts, stage := .wake }) ∧
    (s.client.session.remaining < s.pace.renewBelowS → s.client.session.mode = .venting →
      (settleJob j s).client.job =
        some { request := .ventOn s.pace.renewMinutes, attempts := s.pace.attempts, stage := .wake }) ∧
    (s.pace.renewBelowS ≤ s.client.session.remaining ∨ s.client.session.mode = .off →
      (settleJob j s).client.job = none) ∧
    (settleJob j s).client.session = s.client.session ∧
    State.reset.pace.renewBelowS = 30 ∧ State.reset.pace.renewMinutes = 1#8

/-- R265, R269, R276: a tick starts at most one task, one that never ran or whose period has passed since its
last run: the keep-alive sends CHECK of the active session's code (0x21 heating, 0x22 venting) with the
keep-alive's budget of attempts, and each query its own request with one attempt. It does nothing only when
every task ran less than its period ago, or is a keep-alive with no session. Flags and most of the other
queries share the period of 5 s at reset, the counters have 30 s, the keep-alive 10 s. Without the
opportunistic drain the tick does nothing to the block; with it, an IDLE block is drained first. (The record
of runs, the round robin's order and the drain's place are the model's choice, log 17; "most", log 7.) -/
def Obligations.TickRunsAtMostOneTask : Prop :=
  (∀ (s : State), s.client.job = none →
    (∃ t, clientTick false s = .next t ∧ { t with client := s.client } = s ∧
      t.client.session = s.client.session ∧ t.client.snapshots = s.client.snapshots ∧
      ((t.client = s.client ∧ ∀ x : Task,
          (x = .keepAlive ∧ s.client.session.mode = .off) ∨
          ∃ r, s.client.lastRun.get x = some r ∧ elapsed s r < taskPeriod s x) ∨
        ∃ (x : Task) (i : Instr) (n : Nat),
          (s.client.lastRun.get x = none ∨
            ∃ r, s.client.lastRun.get x = some r ∧ taskPeriod s x ≤ elapsed s r) ∧
          ((x = .keepAlive ∧ s.client.session.mode = .heating ∧ i = .check 0x21#8 ∧ n = s.pace.attempts) ∨
            (x = .keepAlive ∧ s.client.session.mode = .venting ∧ i = .check 0x22#8 ∧ n = s.pace.attempts) ∨
            (x = .flags ∧ i = .queryFlags ∧ n = 1) ∨ (x = .drive ∧ i = .queryDrive ∧ n = 1) ∨
            (x = .sensors ∧ i = .querySensors ∧ n = 1) ∨ (x = .counters ∧ i = .queryCounters ∧ n = 1) ∨
            (x = .state ∧ i = .queryState ∧ n = 1)) ∧
          t.client.job = some { request := i, attempts := n, stage := .wake } ∧
          t.client.nextTask = x.after ∧ t.client.lastRun = s.client.lastRun.set x s.now)) ∧
    (s.busy = false → ∃ u, exec .drain s = .next u ∧ clientTick true s = clientTick false u) ∧
    (s.busy = true → clientTick true s = clientTick false s)) ∧
  (∀ s : State,
    taskPeriod s .keepAlive = s.pace.keepAliveS * 1000 ∧ taskPeriod s .flags = s.pace.queryMs ∧
    taskPeriod s .counters = s.pace.countersMs ∧
    (taskPeriod s .drive = s.pace.queryMs ∨ taskPeriod s .sensors = s.pace.queryMs) ∧
    (taskPeriod s .drive = s.pace.queryMs ∨ taskPeriod s .state = s.pace.queryMs) ∧
    (taskPeriod s .sensors = s.pace.queryMs ∨ taskPeriod s .state = s.pace.queryMs)) ∧
  State.reset.pace.keepAliveS = 10 ∧ State.reset.pace.queryMs = 5000 ∧
  State.reset.pace.countersMs = 30000
end

