-- ==== Sys2Proof/Laws/Memory.lean ====
section
/-! SUPPORT. The laws of the buffers' memory: read after write, writes leave every other byte alone,
and every operation keeps the canonical form. -/

namespace Sys2Proof.Machine

@[simp] theorem find_put_same (m : Memory) (a : Nat) (v : Byte) : (m.put a v).find a = some v := by
  induction m with
  | nil => simp [Memory.put, Memory.find]
  | cons p rest ih =>
    obtain ⟨b, w⟩ := p
    simp only [Memory.put]
    split
    · simp [Memory.find]
    · split
      · simp [Memory.find]
      · rename_i h1 h2
        simp [Memory.find, h2, ih]

theorem find_put_other (m : Memory) (a c : Nat) (v : Byte) (h : c ≠ a) :
    (m.put a v).find c = m.find c := by
  induction m with
  | nil => simp [Memory.put, Memory.find, h]
  | cons p rest ih =>
    obtain ⟨b, w⟩ := p
    simp only [Memory.put]
    split
    · simp [Memory.find, h]
    · split
      · rename_i h1 h2
        subst h2
        simp [Memory.find, h]
      · simp [Memory.find, ih]

theorem mem_put {m : Memory} {a : Nat} {v : Byte} {p : Host.Cell} (h : p ∈ m.put a v) :
    p = (a, v) ∨ p ∈ m := by
  induction m with
  | nil => simpa [Memory.put] using h
  | cons q rest ih =>
    obtain ⟨b, w⟩ := q
    simp only [Memory.put] at h
    split at h
    · simpa using h
    · split at h
      · simp only [List.mem_cons] at h ⊢
        tauto
      · simp only [List.mem_cons] at h ⊢
        rcases h with h | h
        · tauto
        · rcases ih h with h | h <;> tauto

/-- A write keeps the canonical form. -/
theorem put_wf {m : Memory} {a : Nat} {v : Byte} (hm : m.wf) (ha : isBuffer a = true) :
    (m.put a v).wf := by
  refine ⟨?_, fun p hp => ?_⟩
  · have hs := hm.1
    clear hm
    induction m with
    | nil => simp [Memory.put]
    | cons q rest ih =>
      obtain ⟨b, w⟩ := q
      simp only [List.pairwise_cons] at hs
      simp only [Memory.put]
      split
      · rename_i hlt
        simp only [List.pairwise_cons, List.mem_cons]
        refine ⟨?_, ⟨hs.1, hs.2⟩⟩
        rintro p (rfl | hp)
        · exact hlt
        · exact lt_trans hlt (hs.1 p hp)
      · split
        · rename_i h1 h2
          subst h2
          exact List.pairwise_cons.mpr ⟨hs.1, hs.2⟩
        · rename_i h1 h2
          refine List.pairwise_cons.mpr ⟨fun p hp => ?_, ih hs.2⟩
          rcases mem_put hp with rfl | hp
          · show b < a
            omega
          · exact hs.1 p hp
  · rcases mem_put hp with rfl | hp
    · exact ha
    · exact hm.2 p hp

/-- The empty memory is canonical. -/
theorem nil_wf : Memory.wf [] := by simp [Memory.wf]

/-- A buffer byte depends on the memory and the epoch only. -/
theorem readBuffer_congr {s t : State} (hm : t.mem = s.mem) (he : t.epoch = s.epoch) (a : Nat) :
    readBuffer t a = readBuffer s a := by
  simp [readBuffer, hm, he]

theorem readBytes_congr {s t : State} {a n : Nat}
    (h : ∀ i, i < n → readBuffer t (a + i) = readBuffer s (a + i)) :
    readBytes t a n = readBytes s a n := by
  induction n generalizing a with
  | zero => rfl
  | succ n ih =>
    simp only [readBytes]
    rw [ih (fun i hi => by have := h (i + 1) (by omega); simpa [Nat.add_comm, Nat.add_left_comm] using this)]
    have := h 0 (by omega)
    simp only [Nat.add_zero] at this
    rw [this]

@[simp] theorem readBytes_length (s : State) (a n : Nat) : (readBytes s a n).length = n := by
  induction n generalizing a with
  | zero => rfl
  | succ n ih => simp [readBytes, ih]

theorem readBytes_getElem? (s : State) (a n i : Nat) (h : i < n) :
    (readBytes s a n)[i]? = some (readBuffer s (a + i)) := by
  induction n generalizing a i with
  | zero => omega
  | succ n ih =>
    cases i with
    | zero => simp [readBytes]
    | succ i =>
      simp only [readBytes, List.getElem?_cons_succ]
      rw [ih (a + 1) i (by omega)]
      congr 2
      omega

theorem readBytes_add (s : State) (a m n : Nat) :
    readBytes s a (m + n) = readBytes s a m ++ readBytes s (a + m) n := by
  induction m generalizing a with
  | zero => simp [readBytes]
  | succ m ih =>
    rw [show m + 1 + n = (m + n) + 1 by omega]
    simp only [readBytes, List.cons_append]
    rw [ih (a + 1), show a + 1 + m = a + (m + 1) by omega]

theorem writeBuffer_eq (s : State) (a : Nat) (v : Byte) :
    writeBuffer s a v = { s with mem := (writeBuffer s a v).mem } := by
  unfold writeBuffer
  split <;> rfl

/-- Writing buffer bytes changes the memory and nothing else. -/
theorem writeBytes_eq (s : State) (a : Nat) (bs : List Byte) :
    writeBytes s a bs = { s with mem := (writeBytes s a bs).mem } := by
  induction bs generalizing s a with
  | nil => rfl
  | cons b bs ih =>
    simp only [writeBytes]
    rw [ih (writeBuffer s a b) (a + 1), writeBuffer_eq]

theorem readBuffer_writeBuffer_same (s : State) (a : Nat) (v : Byte) (h : isBuffer a = true) :
    readBuffer (writeBuffer s a v) a = v := by
  simp [readBuffer, writeBuffer, h]

theorem readBuffer_writeBuffer_other (s : State) (a b : Nat) (v : Byte) (h : b ≠ a) :
    readBuffer (writeBuffer s a v) b = readBuffer s b := by
  unfold writeBuffer
  split
  · simp [readBuffer, find_put_other _ _ _ _ h]
  · rfl

/-- Writing bytes leaves every byte outside their window alone. -/
theorem readBuffer_writeBytes_outside (s : State) (a b : Nat) (bs : List Byte)
    (h : b < a ∨ a + bs.length ≤ b) : readBuffer (writeBytes s a bs) b = readBuffer s b := by
  induction bs generalizing s a with
  | nil => rfl
  | cons v bs ih =>
    simp only [List.length_cons] at h
    simp only [writeBytes]
    rw [ih (writeBuffer s a v) (a + 1) (by omega), readBuffer_writeBuffer_other _ _ _ _ (by omega)]

/-- Bytes written inside the buffers are read back. -/
theorem readBytes_writeBytes (s : State) (a : Nat) (bs : List Byte)
    (h : ∀ i, i < bs.length → isBuffer (a + i) = true) :
    readBytes (writeBytes s a bs) a bs.length = bs := by
  induction bs generalizing s a with
  | nil => rfl
  | cons v bs ih =>
    simp only [List.length_cons, readBytes, writeBytes]
    rw [ih (writeBuffer s a v) (a + 1)
      (fun i hi => by have := h (i + 1) (by simpa using hi); simpa [Nat.add_comm, Nat.add_left_comm] using this)]
    rw [readBuffer_writeBytes_outside _ _ _ _ (by omega),
      readBuffer_writeBuffer_same _ _ _ (by simpa using h 0 (by simp))]

theorem writeBuffer_wf {s : State} (a : Nat) (v : Byte) (h : s.mem.wf) : (writeBuffer s a v).mem.wf := by
  unfold writeBuffer
  split
  · exact put_wf h ‹_›
  · exact h

/-- Writing buffer bytes keeps the memory's canonical form. -/
theorem writeBytes_wf {s : State} (a : Nat) (bs : List Byte) (h : s.mem.wf) :
    (writeBytes s a bs).mem.wf := by
  induction bs generalizing s a with
  | nil => exact h
  | cons b bs ih => exact ih (a + 1) (writeBuffer_wf a b h)

theorem isBuffer_pbuf {i : Nat} (h : i < pbufSize) : isBuffer (pbufBase + i) = true := by
  simp [isBuffer, inWindow]
  omega

theorem isBuffer_fbuf {i : Nat} (h : i < fbufSize) : isBuffer (fbufBase + i) = true := by
  simp [isBuffer, inWindow]
  omega

theorem isBuffer_rbuf {i : Nat} (h : i < rbufSize) : isBuffer (rbufBase + i) = true := by
  simp [isBuffer, inWindow]
  omega

end Sys2Proof.Machine
end

