-- ==== Sys2Proof/Laws/Frame.lean ====
section
/-! SUPPORT. The laws of the checksum and of frames (41_framer R170, R171). -/

namespace Sys2Proof.Machine

@[simp] theorem xorFold_nil : xorFold [] = 0#8 := rfl

theorem foldl_xor (x : Byte) (s : List Byte) :
    s.foldl (fun x b => x ^^^ b) x = x ^^^ xorFold s := by
  induction s generalizing x with
  | nil => simp
  | cons b s ih =>
    simp only [xorFold, List.foldl_cons]
    rw [ih, ih (0x00#8 ^^^ b)]
    simp [BitVec.xor_assoc]

@[simp] theorem xorFold_cons (b : Byte) (s : List Byte) : xorFold (b :: s) = b ^^^ xorFold s := by
  simp only [xorFold, List.foldl_cons]
  rw [foldl_xor]
  simp [xorFold]

@[simp] theorem xorFold_append (s t : List Byte) : xorFold (s ++ t) = xorFold s ^^^ xorFold t := by
  induction s with
  | nil => simp
  | cons b s ih => simp [ih, BitVec.xor_assoc]

/-- Changing one byte changes the XOR by the difference. -/
theorem xorFold_set (s : List Byte) (j : Nat) (h : j < s.length) (v : Byte) :
    xorFold (s.set j v) = xorFold s ^^^ s[j] ^^^ v := by
  induction s generalizing j with
  | nil => simp at h
  | cons b s ih =>
    cases j with
    | zero =>
      simp only [List.set_cons_zero, xorFold_cons, List.getElem_cons_zero]
      rw [BitVec.xor_comm b, BitVec.xor_assoc (xorFold s), BitVec.xor_self, BitVec.xor_zero,
        BitVec.xor_comm]
    | succ j =>
      simp only [List.length_cons, Nat.add_lt_add_iff_right] at h
      simp only [List.set_cons_succ, xorFold_cons, List.getElem_cons_succ, ih j h, BitVec.xor_assoc]

@[simp] theorem frameBody_length (a : Byte) (p : List Byte) : (frameBody a p).length = p.length + 2 := by
  simp [frameBody]

@[simp] theorem frame_length (a : Byte) (p : List Byte) : (frame a p).length = p.length + 3 := by
  simp [frame]

/-- The checksum check says that the bytes XOR to 0x00, once there is one. -/
theorem checksumCheck_iff (f : List Byte) (h : f ≠ []) : checksumCheck f = true ↔ xorFold f = 0#8 := by
  obtain ⟨g, c, rfl⟩ : ∃ g c, f = g ++ [c] := ⟨f.dropLast, f.getLast h, (List.dropLast_append_getLast h).symm⟩
  simp only [checksumCheck, List.getLast?_append, List.getLast?_singleton, Option.some_or,
    List.dropLast_concat, beq_iff_eq, xorFold_append, xorFold_cons, xorFold_nil, BitVec.xor_zero]
  constructor
  · rintro rfl
    simp
  · intro h
    have := congrArg (fun x => xorFold g ^^^ x) h
    simpa [← BitVec.xor_assoc] using this

@[simp] theorem checkFrame_csumOk (f : List Byte) (e : Nat) : (checkFrame f e).csumOk = checksumCheck f := rfl

theorem firstError_le (a b c d : Bool) : (firstError a b c d).toNat ≤ 4 := by
  revert a b c d
  decide

theorem checkFrame_ferr_le (f : List Byte) (e : Nat) : (checkFrame f e).ferr.toNat ≤ 4 :=
  firstError_le _ _ _ _

end Sys2Proof.Machine
end

