-- ==== Sys2Proof/Laws/State.lean ====
section
/-! SUPPORT. What each shared update does to each field of State: one lemma per field per update. -/

namespace Sys2Proof.Machine

/-! ### finish -/

@[simp] theorem finish_phase (r : BitVec 3) (s : State) : (finish r s).phase = phaseIdle := rfl
@[simp] theorem finish_t0 (r : BitVec 3) (s : State) : (finish r s).t0 = s.t0 := rfl
@[simp] theorem finish_plen (r : BitVec 3) (s : State) : (finish r s).plen = s.plen := rfl
@[simp] theorem finish_explen (r : BitVec 3) (s : State) : (finish r s).explen = s.explen := rfl
@[simp] theorem finish_addr (r : BitVec 3) (s : State) : (finish r s).addr = s.addr := rfl
@[simp] theorem finish_flen (r : BitVec 3) (s : State) : (finish r s).flen = s.flen := rfl
@[simp] theorem finish_res (r : BitVec 3) (s : State) : (finish r s).res = r := rfl
@[simp] theorem finish_lastOp (r : BitVec 3) (s : State) : (finish r s).lastOp = s.lastOp := rfl
@[simp] theorem finish_checks (r : BitVec 3) (s : State) : (finish r s).checks = s.checks := rfl
@[simp] theorem finish_echo (r : BitVec 3) (s : State) : (finish r s).echo = s.echo := rfl
@[simp] theorem finish_rcount (r : BitVec 3) (s : State) : (finish r s).rcount = s.rcount := rfl
@[simp] theorem finish_ecount (r : BitVec 3) (s : State) : (finish r s).ecount = s.ecount := rfl
@[simp] theorem finish_done (r : BitVec 3) (s : State) : (finish r s).done = true := rfl
@[simp] theorem finish_cmdErr (r : BitVec 3) (s : State) : (finish r s).cmdErr = s.cmdErr := rfl
@[simp] theorem finish_woke (r : BitVec 3) (s : State) : (finish r s).woke = s.woke := rfl
@[simp] theorem finish_liveValid (r : BitVec 3) (s : State) : (finish r s).liveValid = s.liveValid := rfl
@[simp] theorem finish_liveTs (r : BitVec 3) (s : State) : (finish r s).liveTs = s.liveTs := rfl
@[simp] theorem finish_mem (r : BitVec 3) (s : State) : (finish r s).mem = s.mem := rfl
@[simp] theorem finish_rxq (r : BitVec 3) (s : State) : (finish r s).rxq = s.rxq := rfl
@[simp] theorem finish_txIdle (r : BitVec 3) (s : State) : (finish r s).txIdle = s.txIdle := rfl
@[simp] theorem finish_phyOut (r : BitVec 3) (s : State) : (finish r s).phyOut = s.phyOut := rfl
@[simp] theorem finish_now (r : BitVec 3) (s : State) : (finish r s).now = s.now := rfl
@[simp] theorem finish_client (r : BitVec 3) (s : State) : (finish r s).client = s.client := rfl
@[simp] theorem finish_timing (r : BitVec 3) (s : State) : (finish r s).timing = s.timing := rfl
@[simp] theorem finish_pace (r : BitVec 3) (s : State) : (finish r s).pace = s.pace := rfl
@[simp] theorem finish_params (r : BitVec 3) (s : State) : (finish r s).params = s.params := rfl
@[simp] theorem finish_epoch (r : BitVec 3) (s : State) : (finish r s).epoch = s.epoch := rfl
@[simp] theorem finish_rxDraws (r : BitVec 3) (s : State) : (finish r s).rxDraws = s.rxDraws := rfl
@[simp] theorem finish_inputs (r : BitVec 3) (s : State) : (finish r s).inputs = s.inputs := rfl
@[simp] theorem finish_reads (r : BitVec 3) (s : State) : (finish r s).reads = s.reads := rfl

/-! ### refuse -/

@[simp] theorem refuse_phase (s : State) : (refuse s).phase = s.phase := rfl
@[simp] theorem refuse_t0 (s : State) : (refuse s).t0 = s.t0 := rfl
@[simp] theorem refuse_plen (s : State) : (refuse s).plen = s.plen := rfl
@[simp] theorem refuse_explen (s : State) : (refuse s).explen = s.explen := rfl
@[simp] theorem refuse_addr (s : State) : (refuse s).addr = s.addr := rfl
@[simp] theorem refuse_flen (s : State) : (refuse s).flen = s.flen := rfl
@[simp] theorem refuse_res (s : State) : (refuse s).res = resRefused := rfl
@[simp] theorem refuse_lastOp (s : State) : (refuse s).lastOp = s.lastOp := rfl
@[simp] theorem refuse_checks (s : State) : (refuse s).checks = s.checks := rfl
@[simp] theorem refuse_echo (s : State) : (refuse s).echo = s.echo := rfl
@[simp] theorem refuse_rcount (s : State) : (refuse s).rcount = s.rcount := rfl
@[simp] theorem refuse_ecount (s : State) : (refuse s).ecount = s.ecount := rfl
@[simp] theorem refuse_done (s : State) : (refuse s).done = true := rfl
@[simp] theorem refuse_cmdErr (s : State) : (refuse s).cmdErr = true := rfl
@[simp] theorem refuse_woke (s : State) : (refuse s).woke = s.woke := rfl
@[simp] theorem refuse_liveValid (s : State) : (refuse s).liveValid = s.liveValid := rfl
@[simp] theorem refuse_liveTs (s : State) : (refuse s).liveTs = s.liveTs := rfl
@[simp] theorem refuse_mem (s : State) : (refuse s).mem = s.mem := rfl
@[simp] theorem refuse_rxq (s : State) : (refuse s).rxq = s.rxq := rfl
@[simp] theorem refuse_txIdle (s : State) : (refuse s).txIdle = s.txIdle := rfl
@[simp] theorem refuse_phyOut (s : State) : (refuse s).phyOut = s.phyOut := rfl
@[simp] theorem refuse_now (s : State) : (refuse s).now = s.now := rfl
@[simp] theorem refuse_client (s : State) : (refuse s).client = s.client := rfl
@[simp] theorem refuse_timing (s : State) : (refuse s).timing = s.timing := rfl
@[simp] theorem refuse_pace (s : State) : (refuse s).pace = s.pace := rfl
@[simp] theorem refuse_params (s : State) : (refuse s).params = s.params := rfl
@[simp] theorem refuse_epoch (s : State) : (refuse s).epoch = s.epoch := rfl
@[simp] theorem refuse_rxDraws (s : State) : (refuse s).rxDraws = s.rxDraws := rfl
@[simp] theorem refuse_inputs (s : State) : (refuse s).inputs = s.inputs := rfl
@[simp] theorem refuse_reads (s : State) : (refuse s).reads = s.reads := rfl

/-! ### clearResults -/

@[simp] theorem clearResults_phase (s : State) : (clearResults s).phase = s.phase := rfl
@[simp] theorem clearResults_t0 (s : State) : (clearResults s).t0 = s.t0 := rfl
@[simp] theorem clearResults_plen (s : State) : (clearResults s).plen = s.plen := rfl
@[simp] theorem clearResults_explen (s : State) : (clearResults s).explen = s.explen := rfl
@[simp] theorem clearResults_addr (s : State) : (clearResults s).addr = s.addr := rfl
@[simp] theorem clearResults_flen (s : State) : (clearResults s).flen = s.flen := rfl
@[simp] theorem clearResults_res (s : State) : (clearResults s).res = s.res := rfl
@[simp] theorem clearResults_lastOp (s : State) : (clearResults s).lastOp = s.lastOp := rfl
@[simp] theorem clearResults_checks (s : State) : (clearResults s).checks = Checks.clear := rfl
@[simp] theorem clearResults_echo (s : State) : (clearResults s).echo = Echo.clear := rfl
@[simp] theorem clearResults_rcount (s : State) : (clearResults s).rcount = 0#9 := rfl
@[simp] theorem clearResults_ecount (s : State) : (clearResults s).ecount = 0#9 := rfl
@[simp] theorem clearResults_done (s : State) : (clearResults s).done = false := rfl
@[simp] theorem clearResults_cmdErr (s : State) : (clearResults s).cmdErr = false := rfl
@[simp] theorem clearResults_woke (s : State) : (clearResults s).woke = s.woke := rfl
@[simp] theorem clearResults_liveValid (s : State) : (clearResults s).liveValid = s.liveValid := rfl
@[simp] theorem clearResults_liveTs (s : State) : (clearResults s).liveTs = s.liveTs := rfl
@[simp] theorem clearResults_mem (s : State) : (clearResults s).mem = s.mem := rfl
@[simp] theorem clearResults_rxq (s : State) : (clearResults s).rxq = s.rxq := rfl
@[simp] theorem clearResults_txIdle (s : State) : (clearResults s).txIdle = s.txIdle := rfl
@[simp] theorem clearResults_phyOut (s : State) : (clearResults s).phyOut = s.phyOut := rfl
@[simp] theorem clearResults_now (s : State) : (clearResults s).now = s.now := rfl
@[simp] theorem clearResults_client (s : State) : (clearResults s).client = s.client := rfl
@[simp] theorem clearResults_timing (s : State) : (clearResults s).timing = s.timing := rfl
@[simp] theorem clearResults_pace (s : State) : (clearResults s).pace = s.pace := rfl
@[simp] theorem clearResults_params (s : State) : (clearResults s).params = s.params := rfl
@[simp] theorem clearResults_epoch (s : State) : (clearResults s).epoch = s.epoch := rfl
@[simp] theorem clearResults_rxDraws (s : State) : (clearResults s).rxDraws = s.rxDraws := rfl
@[simp] theorem clearResults_inputs (s : State) : (clearResults s).inputs = s.inputs := rfl
@[simp] theorem clearResults_reads (s : State) : (clearResults s).reads = s.reads := rfl

/-! ### commandWhileBusy -/

@[simp] theorem commandWhileBusy_phase (s : State) : (commandWhileBusy s).phase = s.phase := rfl
@[simp] theorem commandWhileBusy_t0 (s : State) : (commandWhileBusy s).t0 = s.t0 := rfl
@[simp] theorem commandWhileBusy_plen (s : State) : (commandWhileBusy s).plen = s.plen := rfl
@[simp] theorem commandWhileBusy_explen (s : State) : (commandWhileBusy s).explen = s.explen := rfl
@[simp] theorem commandWhileBusy_addr (s : State) : (commandWhileBusy s).addr = s.addr := rfl
@[simp] theorem commandWhileBusy_flen (s : State) : (commandWhileBusy s).flen = s.flen := rfl
@[simp] theorem commandWhileBusy_res (s : State) : (commandWhileBusy s).res = s.res := rfl
@[simp] theorem commandWhileBusy_lastOp (s : State) : (commandWhileBusy s).lastOp = s.lastOp := rfl
@[simp] theorem commandWhileBusy_checks (s : State) : (commandWhileBusy s).checks = s.checks := rfl
@[simp] theorem commandWhileBusy_echo (s : State) : (commandWhileBusy s).echo = s.echo := rfl
@[simp] theorem commandWhileBusy_rcount (s : State) : (commandWhileBusy s).rcount = s.rcount := rfl
@[simp] theorem commandWhileBusy_ecount (s : State) : (commandWhileBusy s).ecount = s.ecount := rfl
@[simp] theorem commandWhileBusy_done (s : State) : (commandWhileBusy s).done = s.done := rfl
@[simp] theorem commandWhileBusy_cmdErr (s : State) : (commandWhileBusy s).cmdErr = true := rfl
@[simp] theorem commandWhileBusy_woke (s : State) : (commandWhileBusy s).woke = s.woke := rfl
@[simp] theorem commandWhileBusy_liveValid (s : State) : (commandWhileBusy s).liveValid = s.liveValid := rfl
@[simp] theorem commandWhileBusy_liveTs (s : State) : (commandWhileBusy s).liveTs = s.liveTs := rfl
@[simp] theorem commandWhileBusy_mem (s : State) : (commandWhileBusy s).mem = s.mem := rfl
@[simp] theorem commandWhileBusy_rxq (s : State) : (commandWhileBusy s).rxq = s.rxq := rfl
@[simp] theorem commandWhileBusy_txIdle (s : State) : (commandWhileBusy s).txIdle = s.txIdle := rfl
@[simp] theorem commandWhileBusy_phyOut (s : State) : (commandWhileBusy s).phyOut = s.phyOut := rfl
@[simp] theorem commandWhileBusy_now (s : State) : (commandWhileBusy s).now = s.now := rfl
@[simp] theorem commandWhileBusy_client (s : State) : (commandWhileBusy s).client = s.client := rfl
@[simp] theorem commandWhileBusy_timing (s : State) : (commandWhileBusy s).timing = s.timing := rfl
@[simp] theorem commandWhileBusy_pace (s : State) : (commandWhileBusy s).pace = s.pace := rfl
@[simp] theorem commandWhileBusy_params (s : State) : (commandWhileBusy s).params = s.params := rfl
@[simp] theorem commandWhileBusy_epoch (s : State) : (commandWhileBusy s).epoch = s.epoch := rfl
@[simp] theorem commandWhileBusy_rxDraws (s : State) : (commandWhileBusy s).rxDraws = s.rxDraws := rfl
@[simp] theorem commandWhileBusy_inputs (s : State) : (commandWhileBusy s).inputs = s.inputs := rfl
@[simp] theorem commandWhileBusy_reads (s : State) : (commandWhileBusy s).reads = s.reads := rfl

/-! ### rxDiscardAll -/

@[simp] theorem rxDiscardAll_phase (s : State) : (rxDiscardAll s).phase = s.phase := rfl
@[simp] theorem rxDiscardAll_t0 (s : State) : (rxDiscardAll s).t0 = s.t0 := rfl
@[simp] theorem rxDiscardAll_plen (s : State) : (rxDiscardAll s).plen = s.plen := rfl
@[simp] theorem rxDiscardAll_explen (s : State) : (rxDiscardAll s).explen = s.explen := rfl
@[simp] theorem rxDiscardAll_addr (s : State) : (rxDiscardAll s).addr = s.addr := rfl
@[simp] theorem rxDiscardAll_flen (s : State) : (rxDiscardAll s).flen = s.flen := rfl
@[simp] theorem rxDiscardAll_res (s : State) : (rxDiscardAll s).res = s.res := rfl
@[simp] theorem rxDiscardAll_lastOp (s : State) : (rxDiscardAll s).lastOp = s.lastOp := rfl
@[simp] theorem rxDiscardAll_checks (s : State) : (rxDiscardAll s).checks = s.checks := rfl
@[simp] theorem rxDiscardAll_echo (s : State) : (rxDiscardAll s).echo = s.echo := rfl
@[simp] theorem rxDiscardAll_rcount (s : State) : (rxDiscardAll s).rcount = s.rcount := rfl
@[simp] theorem rxDiscardAll_ecount (s : State) : (rxDiscardAll s).ecount = s.ecount := rfl
@[simp] theorem rxDiscardAll_done (s : State) : (rxDiscardAll s).done = s.done := rfl
@[simp] theorem rxDiscardAll_cmdErr (s : State) : (rxDiscardAll s).cmdErr = s.cmdErr := rfl
@[simp] theorem rxDiscardAll_woke (s : State) : (rxDiscardAll s).woke = s.woke := rfl
@[simp] theorem rxDiscardAll_liveValid (s : State) : (rxDiscardAll s).liveValid = s.liveValid := rfl
@[simp] theorem rxDiscardAll_liveTs (s : State) : (rxDiscardAll s).liveTs = s.liveTs := rfl
@[simp] theorem rxDiscardAll_mem (s : State) : (rxDiscardAll s).mem = s.mem := rfl
@[simp] theorem rxDiscardAll_rxq (s : State) : (rxDiscardAll s).rxq = [] := rfl
@[simp] theorem rxDiscardAll_txIdle (s : State) : (rxDiscardAll s).txIdle = s.txIdle := rfl
@[simp] theorem rxDiscardAll_phyOut (s : State) : (rxDiscardAll s).phyOut = s.phyOut := rfl
@[simp] theorem rxDiscardAll_now (s : State) : (rxDiscardAll s).now = s.now := rfl
@[simp] theorem rxDiscardAll_client (s : State) : (rxDiscardAll s).client = s.client := rfl
@[simp] theorem rxDiscardAll_timing (s : State) : (rxDiscardAll s).timing = s.timing := rfl
@[simp] theorem rxDiscardAll_pace (s : State) : (rxDiscardAll s).pace = s.pace := rfl
@[simp] theorem rxDiscardAll_params (s : State) : (rxDiscardAll s).params = s.params := rfl
@[simp] theorem rxDiscardAll_epoch (s : State) : (rxDiscardAll s).epoch = s.epoch := rfl
@[simp] theorem rxDiscardAll_rxDraws (s : State) : (rxDiscardAll s).rxDraws = s.rxDraws := rfl
@[simp] theorem rxDiscardAll_inputs (s : State) : (rxDiscardAll s).inputs = s.inputs := rfl
@[simp] theorem rxDiscardAll_reads (s : State) : (rxDiscardAll s).reads = s.reads := rfl

/-! ### rxTake -/

@[simp] theorem rxTake_phase (k : Nat) (s : State) : (rxTake k s).phase = s.phase := rfl
@[simp] theorem rxTake_t0 (k : Nat) (s : State) : (rxTake k s).t0 = s.t0 := rfl
@[simp] theorem rxTake_plen (k : Nat) (s : State) : (rxTake k s).plen = s.plen := rfl
@[simp] theorem rxTake_explen (k : Nat) (s : State) : (rxTake k s).explen = s.explen := rfl
@[simp] theorem rxTake_addr (k : Nat) (s : State) : (rxTake k s).addr = s.addr := rfl
@[simp] theorem rxTake_flen (k : Nat) (s : State) : (rxTake k s).flen = s.flen := rfl
@[simp] theorem rxTake_res (k : Nat) (s : State) : (rxTake k s).res = s.res := rfl
@[simp] theorem rxTake_lastOp (k : Nat) (s : State) : (rxTake k s).lastOp = s.lastOp := rfl
@[simp] theorem rxTake_checks (k : Nat) (s : State) : (rxTake k s).checks = s.checks := rfl
@[simp] theorem rxTake_echo (k : Nat) (s : State) : (rxTake k s).echo = s.echo := rfl
@[simp] theorem rxTake_rcount (k : Nat) (s : State) : (rxTake k s).rcount = s.rcount := rfl
@[simp] theorem rxTake_ecount (k : Nat) (s : State) : (rxTake k s).ecount = s.ecount := rfl
@[simp] theorem rxTake_done (k : Nat) (s : State) : (rxTake k s).done = s.done := rfl
@[simp] theorem rxTake_cmdErr (k : Nat) (s : State) : (rxTake k s).cmdErr = s.cmdErr := rfl
@[simp] theorem rxTake_woke (k : Nat) (s : State) : (rxTake k s).woke = s.woke := rfl
@[simp] theorem rxTake_liveValid (k : Nat) (s : State) : (rxTake k s).liveValid = s.liveValid := rfl
@[simp] theorem rxTake_liveTs (k : Nat) (s : State) : (rxTake k s).liveTs = s.liveTs := rfl
@[simp] theorem rxTake_mem (k : Nat) (s : State) : (rxTake k s).mem = s.mem := rfl
@[simp] theorem rxTake_rxq (k : Nat) (s : State) : (rxTake k s).rxq = s.rxq.drop k := rfl
@[simp] theorem rxTake_txIdle (k : Nat) (s : State) : (rxTake k s).txIdle = s.txIdle := rfl
@[simp] theorem rxTake_phyOut (k : Nat) (s : State) : (rxTake k s).phyOut = s.phyOut := rfl
@[simp] theorem rxTake_now (k : Nat) (s : State) : (rxTake k s).now = s.now := rfl
@[simp] theorem rxTake_client (k : Nat) (s : State) : (rxTake k s).client = s.client := rfl
@[simp] theorem rxTake_timing (k : Nat) (s : State) : (rxTake k s).timing = s.timing := rfl
@[simp] theorem rxTake_pace (k : Nat) (s : State) : (rxTake k s).pace = s.pace := rfl
@[simp] theorem rxTake_params (k : Nat) (s : State) : (rxTake k s).params = s.params := rfl
@[simp] theorem rxTake_epoch (k : Nat) (s : State) : (rxTake k s).epoch = s.epoch := rfl
@[simp] theorem rxTake_rxDraws (k : Nat) (s : State) : (rxTake k s).rxDraws = s.rxDraws := rfl
@[simp] theorem rxTake_inputs (k : Nat) (s : State) : (rxTake k s).inputs = s.inputs := rfl
@[simp] theorem rxTake_reads (k : Nat) (s : State) : (rxTake k s).reads = s.reads := rfl

/-! ### phyWrite -/

@[simp] theorem phyWrite_phase (bs : List Byte) (s : State) : (phyWrite bs s).phase = s.phase := rfl
@[simp] theorem phyWrite_t0 (bs : List Byte) (s : State) : (phyWrite bs s).t0 = s.t0 := rfl
@[simp] theorem phyWrite_plen (bs : List Byte) (s : State) : (phyWrite bs s).plen = s.plen := rfl
@[simp] theorem phyWrite_explen (bs : List Byte) (s : State) : (phyWrite bs s).explen = s.explen := rfl
@[simp] theorem phyWrite_addr (bs : List Byte) (s : State) : (phyWrite bs s).addr = s.addr := rfl
@[simp] theorem phyWrite_flen (bs : List Byte) (s : State) : (phyWrite bs s).flen = s.flen := rfl
@[simp] theorem phyWrite_res (bs : List Byte) (s : State) : (phyWrite bs s).res = s.res := rfl
@[simp] theorem phyWrite_lastOp (bs : List Byte) (s : State) : (phyWrite bs s).lastOp = s.lastOp := rfl
@[simp] theorem phyWrite_checks (bs : List Byte) (s : State) : (phyWrite bs s).checks = s.checks := rfl
@[simp] theorem phyWrite_echo (bs : List Byte) (s : State) : (phyWrite bs s).echo = s.echo := rfl
@[simp] theorem phyWrite_rcount (bs : List Byte) (s : State) : (phyWrite bs s).rcount = s.rcount := rfl
@[simp] theorem phyWrite_ecount (bs : List Byte) (s : State) : (phyWrite bs s).ecount = s.ecount := rfl
@[simp] theorem phyWrite_done (bs : List Byte) (s : State) : (phyWrite bs s).done = s.done := rfl
@[simp] theorem phyWrite_cmdErr (bs : List Byte) (s : State) : (phyWrite bs s).cmdErr = s.cmdErr := rfl
@[simp] theorem phyWrite_woke (bs : List Byte) (s : State) : (phyWrite bs s).woke = s.woke := rfl
@[simp] theorem phyWrite_liveValid (bs : List Byte) (s : State) : (phyWrite bs s).liveValid = s.liveValid := rfl
@[simp] theorem phyWrite_liveTs (bs : List Byte) (s : State) : (phyWrite bs s).liveTs = s.liveTs := rfl
@[simp] theorem phyWrite_mem (bs : List Byte) (s : State) : (phyWrite bs s).mem = s.mem := rfl
@[simp] theorem phyWrite_rxq (bs : List Byte) (s : State) : (phyWrite bs s).rxq = s.rxq := rfl
@[simp] theorem phyWrite_txIdle (bs : List Byte) (s : State) : (phyWrite bs s).txIdle = false := rfl
@[simp] theorem phyWrite_phyOut (bs : List Byte) (s : State) : (phyWrite bs s).phyOut = s.phyOut ++ [.bytes bs] := rfl
@[simp] theorem phyWrite_now (bs : List Byte) (s : State) : (phyWrite bs s).now = s.now := rfl
@[simp] theorem phyWrite_client (bs : List Byte) (s : State) : (phyWrite bs s).client = s.client := rfl
@[simp] theorem phyWrite_timing (bs : List Byte) (s : State) : (phyWrite bs s).timing = s.timing := rfl
@[simp] theorem phyWrite_pace (bs : List Byte) (s : State) : (phyWrite bs s).pace = s.pace := rfl
@[simp] theorem phyWrite_params (bs : List Byte) (s : State) : (phyWrite bs s).params = s.params := rfl
@[simp] theorem phyWrite_epoch (bs : List Byte) (s : State) : (phyWrite bs s).epoch = s.epoch := rfl
@[simp] theorem phyWrite_rxDraws (bs : List Byte) (s : State) : (phyWrite bs s).rxDraws = s.rxDraws := rfl
@[simp] theorem phyWrite_inputs (bs : List Byte) (s : State) : (phyWrite bs s).inputs = s.inputs := rfl
@[simp] theorem phyWrite_reads (bs : List Byte) (s : State) : (phyWrite bs s).reads = s.reads := rfl

/-! ### phyPulse -/

@[simp] theorem phyPulse_phase (s : State) : (phyPulse s).phase = s.phase := rfl
@[simp] theorem phyPulse_t0 (s : State) : (phyPulse s).t0 = s.t0 := rfl
@[simp] theorem phyPulse_plen (s : State) : (phyPulse s).plen = s.plen := rfl
@[simp] theorem phyPulse_explen (s : State) : (phyPulse s).explen = s.explen := rfl
@[simp] theorem phyPulse_addr (s : State) : (phyPulse s).addr = s.addr := rfl
@[simp] theorem phyPulse_flen (s : State) : (phyPulse s).flen = s.flen := rfl
@[simp] theorem phyPulse_res (s : State) : (phyPulse s).res = s.res := rfl
@[simp] theorem phyPulse_lastOp (s : State) : (phyPulse s).lastOp = s.lastOp := rfl
@[simp] theorem phyPulse_checks (s : State) : (phyPulse s).checks = s.checks := rfl
@[simp] theorem phyPulse_echo (s : State) : (phyPulse s).echo = s.echo := rfl
@[simp] theorem phyPulse_rcount (s : State) : (phyPulse s).rcount = s.rcount := rfl
@[simp] theorem phyPulse_ecount (s : State) : (phyPulse s).ecount = s.ecount := rfl
@[simp] theorem phyPulse_done (s : State) : (phyPulse s).done = s.done := rfl
@[simp] theorem phyPulse_cmdErr (s : State) : (phyPulse s).cmdErr = s.cmdErr := rfl
@[simp] theorem phyPulse_woke (s : State) : (phyPulse s).woke = s.woke := rfl
@[simp] theorem phyPulse_liveValid (s : State) : (phyPulse s).liveValid = s.liveValid := rfl
@[simp] theorem phyPulse_liveTs (s : State) : (phyPulse s).liveTs = s.liveTs := rfl
@[simp] theorem phyPulse_mem (s : State) : (phyPulse s).mem = s.mem := rfl
@[simp] theorem phyPulse_rxq (s : State) : (phyPulse s).rxq = s.rxq := rfl
@[simp] theorem phyPulse_txIdle (s : State) : (phyPulse s).txIdle = false := rfl
@[simp] theorem phyPulse_phyOut (s : State) : (phyPulse s).phyOut = s.phyOut ++ [.pulse s.timing.pulseMs] := rfl
@[simp] theorem phyPulse_now (s : State) : (phyPulse s).now = s.now := rfl
@[simp] theorem phyPulse_client (s : State) : (phyPulse s).client = s.client := rfl
@[simp] theorem phyPulse_timing (s : State) : (phyPulse s).timing = s.timing := rfl
@[simp] theorem phyPulse_pace (s : State) : (phyPulse s).pace = s.pace := rfl
@[simp] theorem phyPulse_params (s : State) : (phyPulse s).params = s.params := rfl
@[simp] theorem phyPulse_epoch (s : State) : (phyPulse s).epoch = s.epoch := rfl
@[simp] theorem phyPulse_rxDraws (s : State) : (phyPulse s).rxDraws = s.rxDraws := rfl
@[simp] theorem phyPulse_inputs (s : State) : (phyPulse s).inputs = s.inputs := rfl
@[simp] theorem phyPulse_reads (s : State) : (phyPulse s).reads = s.reads := rfl

/-! ### awaitReply -/

@[simp] theorem awaitReply_phase (i : Instr) (s : State) : (awaitReply i s).phase = s.phase := rfl
@[simp] theorem awaitReply_t0 (i : Instr) (s : State) : (awaitReply i s).t0 = s.t0 := rfl
@[simp] theorem awaitReply_plen (i : Instr) (s : State) : (awaitReply i s).plen = s.plen := rfl
@[simp] theorem awaitReply_explen (i : Instr) (s : State) : (awaitReply i s).explen = s.explen := rfl
@[simp] theorem awaitReply_addr (i : Instr) (s : State) : (awaitReply i s).addr = s.addr := rfl
@[simp] theorem awaitReply_flen (i : Instr) (s : State) : (awaitReply i s).flen = s.flen := rfl
@[simp] theorem awaitReply_res (i : Instr) (s : State) : (awaitReply i s).res = s.res := rfl
@[simp] theorem awaitReply_lastOp (i : Instr) (s : State) : (awaitReply i s).lastOp = s.lastOp := rfl
@[simp] theorem awaitReply_checks (i : Instr) (s : State) : (awaitReply i s).checks = s.checks := rfl
@[simp] theorem awaitReply_echo (i : Instr) (s : State) : (awaitReply i s).echo = s.echo := rfl
@[simp] theorem awaitReply_rcount (i : Instr) (s : State) : (awaitReply i s).rcount = s.rcount := rfl
@[simp] theorem awaitReply_ecount (i : Instr) (s : State) : (awaitReply i s).ecount = s.ecount := rfl
@[simp] theorem awaitReply_done (i : Instr) (s : State) : (awaitReply i s).done = s.done := rfl
@[simp] theorem awaitReply_cmdErr (i : Instr) (s : State) : (awaitReply i s).cmdErr = s.cmdErr := rfl
@[simp] theorem awaitReply_woke (i : Instr) (s : State) : (awaitReply i s).woke = s.woke := rfl
@[simp] theorem awaitReply_liveValid (i : Instr) (s : State) : (awaitReply i s).liveValid = s.liveValid := rfl
@[simp] theorem awaitReply_liveTs (i : Instr) (s : State) : (awaitReply i s).liveTs = s.liveTs := rfl
@[simp] theorem awaitReply_mem (i : Instr) (s : State) : (awaitReply i s).mem = s.mem := rfl
@[simp] theorem awaitReply_rxq (i : Instr) (s : State) : (awaitReply i s).rxq = s.rxq := rfl
@[simp] theorem awaitReply_txIdle (i : Instr) (s : State) : (awaitReply i s).txIdle = s.txIdle := rfl
@[simp] theorem awaitReply_phyOut (i : Instr) (s : State) : (awaitReply i s).phyOut = s.phyOut := rfl
@[simp] theorem awaitReply_now (i : Instr) (s : State) : (awaitReply i s).now = s.now := rfl
@[simp] theorem awaitReply_client (i : Instr) (s : State) : (awaitReply i s).client = { s.client with pending := some i, outcome := .undecided } := rfl
@[simp] theorem awaitReply_timing (i : Instr) (s : State) : (awaitReply i s).timing = s.timing := rfl
@[simp] theorem awaitReply_pace (i : Instr) (s : State) : (awaitReply i s).pace = s.pace := rfl
@[simp] theorem awaitReply_params (i : Instr) (s : State) : (awaitReply i s).params = s.params := rfl
@[simp] theorem awaitReply_epoch (i : Instr) (s : State) : (awaitReply i s).epoch = s.epoch := rfl
@[simp] theorem awaitReply_rxDraws (i : Instr) (s : State) : (awaitReply i s).rxDraws = s.rxDraws := rfl
@[simp] theorem awaitReply_inputs (i : Instr) (s : State) : (awaitReply i s).inputs = s.inputs := rfl
@[simp] theorem awaitReply_reads (i : Instr) (s : State) : (awaitReply i s).reads = s.reads := rfl

/-! ### settleReply -/

@[simp] theorem settleReply_phase (o : ClientOutcome) (s : State) : (settleReply o s).phase = s.phase := rfl
@[simp] theorem settleReply_t0 (o : ClientOutcome) (s : State) : (settleReply o s).t0 = s.t0 := rfl
@[simp] theorem settleReply_plen (o : ClientOutcome) (s : State) : (settleReply o s).plen = s.plen := rfl
@[simp] theorem settleReply_explen (o : ClientOutcome) (s : State) : (settleReply o s).explen = s.explen := rfl
@[simp] theorem settleReply_addr (o : ClientOutcome) (s : State) : (settleReply o s).addr = s.addr := rfl
@[simp] theorem settleReply_flen (o : ClientOutcome) (s : State) : (settleReply o s).flen = s.flen := rfl
@[simp] theorem settleReply_res (o : ClientOutcome) (s : State) : (settleReply o s).res = s.res := rfl
@[simp] theorem settleReply_lastOp (o : ClientOutcome) (s : State) : (settleReply o s).lastOp = s.lastOp := rfl
@[simp] theorem settleReply_checks (o : ClientOutcome) (s : State) : (settleReply o s).checks = s.checks := rfl
@[simp] theorem settleReply_echo (o : ClientOutcome) (s : State) : (settleReply o s).echo = s.echo := rfl
@[simp] theorem settleReply_rcount (o : ClientOutcome) (s : State) : (settleReply o s).rcount = s.rcount := rfl
@[simp] theorem settleReply_ecount (o : ClientOutcome) (s : State) : (settleReply o s).ecount = s.ecount := rfl
@[simp] theorem settleReply_done (o : ClientOutcome) (s : State) : (settleReply o s).done = s.done := rfl
@[simp] theorem settleReply_cmdErr (o : ClientOutcome) (s : State) : (settleReply o s).cmdErr = s.cmdErr := rfl
@[simp] theorem settleReply_woke (o : ClientOutcome) (s : State) : (settleReply o s).woke = s.woke := rfl
@[simp] theorem settleReply_liveValid (o : ClientOutcome) (s : State) : (settleReply o s).liveValid = s.liveValid := rfl
@[simp] theorem settleReply_liveTs (o : ClientOutcome) (s : State) : (settleReply o s).liveTs = s.liveTs := rfl
@[simp] theorem settleReply_mem (o : ClientOutcome) (s : State) : (settleReply o s).mem = s.mem := rfl
@[simp] theorem settleReply_rxq (o : ClientOutcome) (s : State) : (settleReply o s).rxq = s.rxq := rfl
@[simp] theorem settleReply_txIdle (o : ClientOutcome) (s : State) : (settleReply o s).txIdle = s.txIdle := rfl
@[simp] theorem settleReply_phyOut (o : ClientOutcome) (s : State) : (settleReply o s).phyOut = s.phyOut := rfl
@[simp] theorem settleReply_now (o : ClientOutcome) (s : State) : (settleReply o s).now = s.now := rfl
@[simp] theorem settleReply_client (o : ClientOutcome) (s : State) : (settleReply o s).client = { s.client with pending := none, outcome := o } := rfl
@[simp] theorem settleReply_timing (o : ClientOutcome) (s : State) : (settleReply o s).timing = s.timing := rfl
@[simp] theorem settleReply_pace (o : ClientOutcome) (s : State) : (settleReply o s).pace = s.pace := rfl
@[simp] theorem settleReply_params (o : ClientOutcome) (s : State) : (settleReply o s).params = s.params := rfl
@[simp] theorem settleReply_epoch (o : ClientOutcome) (s : State) : (settleReply o s).epoch = s.epoch := rfl
@[simp] theorem settleReply_rxDraws (o : ClientOutcome) (s : State) : (settleReply o s).rxDraws = s.rxDraws := rfl
@[simp] theorem settleReply_inputs (o : ClientOutcome) (s : State) : (settleReply o s).inputs = s.inputs := rfl
@[simp] theorem settleReply_reads (o : ClientOutcome) (s : State) : (settleReply o s).reads = s.reads := rfl

/-! ### setJob -/

@[simp] theorem setJob_phase (j : Option Job) (s : State) : (setJob j s).phase = s.phase := rfl
@[simp] theorem setJob_t0 (j : Option Job) (s : State) : (setJob j s).t0 = s.t0 := rfl
@[simp] theorem setJob_plen (j : Option Job) (s : State) : (setJob j s).plen = s.plen := rfl
@[simp] theorem setJob_explen (j : Option Job) (s : State) : (setJob j s).explen = s.explen := rfl
@[simp] theorem setJob_addr (j : Option Job) (s : State) : (setJob j s).addr = s.addr := rfl
@[simp] theorem setJob_flen (j : Option Job) (s : State) : (setJob j s).flen = s.flen := rfl
@[simp] theorem setJob_res (j : Option Job) (s : State) : (setJob j s).res = s.res := rfl
@[simp] theorem setJob_lastOp (j : Option Job) (s : State) : (setJob j s).lastOp = s.lastOp := rfl
@[simp] theorem setJob_checks (j : Option Job) (s : State) : (setJob j s).checks = s.checks := rfl
@[simp] theorem setJob_echo (j : Option Job) (s : State) : (setJob j s).echo = s.echo := rfl
@[simp] theorem setJob_rcount (j : Option Job) (s : State) : (setJob j s).rcount = s.rcount := rfl
@[simp] theorem setJob_ecount (j : Option Job) (s : State) : (setJob j s).ecount = s.ecount := rfl
@[simp] theorem setJob_done (j : Option Job) (s : State) : (setJob j s).done = s.done := rfl
@[simp] theorem setJob_cmdErr (j : Option Job) (s : State) : (setJob j s).cmdErr = s.cmdErr := rfl
@[simp] theorem setJob_woke (j : Option Job) (s : State) : (setJob j s).woke = s.woke := rfl
@[simp] theorem setJob_liveValid (j : Option Job) (s : State) : (setJob j s).liveValid = s.liveValid := rfl
@[simp] theorem setJob_liveTs (j : Option Job) (s : State) : (setJob j s).liveTs = s.liveTs := rfl
@[simp] theorem setJob_mem (j : Option Job) (s : State) : (setJob j s).mem = s.mem := rfl
@[simp] theorem setJob_rxq (j : Option Job) (s : State) : (setJob j s).rxq = s.rxq := rfl
@[simp] theorem setJob_txIdle (j : Option Job) (s : State) : (setJob j s).txIdle = s.txIdle := rfl
@[simp] theorem setJob_phyOut (j : Option Job) (s : State) : (setJob j s).phyOut = s.phyOut := rfl
@[simp] theorem setJob_now (j : Option Job) (s : State) : (setJob j s).now = s.now := rfl
@[simp] theorem setJob_client (j : Option Job) (s : State) : (setJob j s).client = { s.client with job := j } := rfl
@[simp] theorem setJob_timing (j : Option Job) (s : State) : (setJob j s).timing = s.timing := rfl
@[simp] theorem setJob_pace (j : Option Job) (s : State) : (setJob j s).pace = s.pace := rfl
@[simp] theorem setJob_params (j : Option Job) (s : State) : (setJob j s).params = s.params := rfl
@[simp] theorem setJob_epoch (j : Option Job) (s : State) : (setJob j s).epoch = s.epoch := rfl
@[simp] theorem setJob_rxDraws (j : Option Job) (s : State) : (setJob j s).rxDraws = s.rxDraws := rfl
@[simp] theorem setJob_inputs (j : Option Job) (s : State) : (setJob j s).inputs = s.inputs := rfl
@[simp] theorem setJob_reads (j : Option Job) (s : State) : (setJob j s).reads = s.reads := rfl

/-! ### writeBytes -/

@[simp] theorem writeBytes_phase (s : State) (a : Nat) (bs : List Byte) :
    (writeBytes s a bs).phase = s.phase := by rw [writeBytes_eq]
@[simp] theorem writeBytes_t0 (s : State) (a : Nat) (bs : List Byte) :
    (writeBytes s a bs).t0 = s.t0 := by rw [writeBytes_eq]
@[simp] theorem writeBytes_plen (s : State) (a : Nat) (bs : List Byte) :
    (writeBytes s a bs).plen = s.plen := by rw [writeBytes_eq]
@[simp] theorem writeBytes_explen (s : State) (a : Nat) (bs : List Byte) :
    (writeBytes s a bs).explen = s.explen := by rw [writeBytes_eq]
@[simp] theorem writeBytes_addr (s : State) (a : Nat) (bs : List Byte) :
    (writeBytes s a bs).addr = s.addr := by rw [writeBytes_eq]
@[simp] theorem writeBytes_flen (s : State) (a : Nat) (bs : List Byte) :
    (writeBytes s a bs).flen = s.flen := by rw [writeBytes_eq]
@[simp] theorem writeBytes_res (s : State) (a : Nat) (bs : List Byte) :
    (writeBytes s a bs).res = s.res := by rw [writeBytes_eq]
@[simp] theorem writeBytes_lastOp (s : State) (a : Nat) (bs : List Byte) :
    (writeBytes s a bs).lastOp = s.lastOp := by rw [writeBytes_eq]
@[simp] theorem writeBytes_checks (s : State) (a : Nat) (bs : List Byte) :
    (writeBytes s a bs).checks = s.checks := by rw [writeBytes_eq]
@[simp] theorem writeBytes_echo (s : State) (a : Nat) (bs : List Byte) :
    (writeBytes s a bs).echo = s.echo := by rw [writeBytes_eq]
@[simp] theorem writeBytes_rcount (s : State) (a : Nat) (bs : List Byte) :
    (writeBytes s a bs).rcount = s.rcount := by rw [writeBytes_eq]
@[simp] theorem writeBytes_ecount (s : State) (a : Nat) (bs : List Byte) :
    (writeBytes s a bs).ecount = s.ecount := by rw [writeBytes_eq]
@[simp] theorem writeBytes_done (s : State) (a : Nat) (bs : List Byte) :
    (writeBytes s a bs).done = s.done := by rw [writeBytes_eq]
@[simp] theorem writeBytes_cmdErr (s : State) (a : Nat) (bs : List Byte) :
    (writeBytes s a bs).cmdErr = s.cmdErr := by rw [writeBytes_eq]
@[simp] theorem writeBytes_woke (s : State) (a : Nat) (bs : List Byte) :
    (writeBytes s a bs).woke = s.woke := by rw [writeBytes_eq]
@[simp] theorem writeBytes_liveValid (s : State) (a : Nat) (bs : List Byte) :
    (writeBytes s a bs).liveValid = s.liveValid := by rw [writeBytes_eq]
@[simp] theorem writeBytes_liveTs (s : State) (a : Nat) (bs : List Byte) :
    (writeBytes s a bs).liveTs = s.liveTs := by rw [writeBytes_eq]
@[simp] theorem writeBytes_rxq (s : State) (a : Nat) (bs : List Byte) :
    (writeBytes s a bs).rxq = s.rxq := by rw [writeBytes_eq]
@[simp] theorem writeBytes_txIdle (s : State) (a : Nat) (bs : List Byte) :
    (writeBytes s a bs).txIdle = s.txIdle := by rw [writeBytes_eq]
@[simp] theorem writeBytes_phyOut (s : State) (a : Nat) (bs : List Byte) :
    (writeBytes s a bs).phyOut = s.phyOut := by rw [writeBytes_eq]
@[simp] theorem writeBytes_now (s : State) (a : Nat) (bs : List Byte) :
    (writeBytes s a bs).now = s.now := by rw [writeBytes_eq]
@[simp] theorem writeBytes_client (s : State) (a : Nat) (bs : List Byte) :
    (writeBytes s a bs).client = s.client := by rw [writeBytes_eq]
@[simp] theorem writeBytes_timing (s : State) (a : Nat) (bs : List Byte) :
    (writeBytes s a bs).timing = s.timing := by rw [writeBytes_eq]
@[simp] theorem writeBytes_pace (s : State) (a : Nat) (bs : List Byte) :
    (writeBytes s a bs).pace = s.pace := by rw [writeBytes_eq]
@[simp] theorem writeBytes_params (s : State) (a : Nat) (bs : List Byte) :
    (writeBytes s a bs).params = s.params := by rw [writeBytes_eq]
@[simp] theorem writeBytes_epoch (s : State) (a : Nat) (bs : List Byte) :
    (writeBytes s a bs).epoch = s.epoch := by rw [writeBytes_eq]
@[simp] theorem writeBytes_rxDraws (s : State) (a : Nat) (bs : List Byte) :
    (writeBytes s a bs).rxDraws = s.rxDraws := by rw [writeBytes_eq]
@[simp] theorem writeBytes_inputs (s : State) (a : Nat) (bs : List Byte) :
    (writeBytes s a bs).inputs = s.inputs := by rw [writeBytes_eq]
@[simp] theorem writeBytes_reads (s : State) (a : Nat) (bs : List Byte) :
    (writeBytes s a bs).reads = s.reads := by rw [writeBytes_eq]

end Sys2Proof.Machine
end

