-- ==== Sys2Proof/Laws/Ops.lean ====
section
/-! SUPPORT. The laws of the shared operations: acceptance in its three cases, what reads depend on,
and the frame that ENCODE and TRANSACT build. -/

namespace Sys2Proof.Machine

theorem busy_eq_false {s : State} : s.busy = false ↔ s.phase = phaseIdle := by
  simp [State.busy]

theorem busy_eq_true {s : State} : s.busy = true ↔ s.phase ≠ phaseIdle := by
  simp [State.busy]

theorem encodeLegal_iff (s : State) : encodeLegal s = true ↔ payloadLength s ≤ 254 := decide_eq_true_iff

theorem validateLegal_iff (s : State) :
    validateLegal s = true ↔ expectedLength s ≤ 254 ∧ s.flen.toNat ≤ 257 :=
  (Bool.and_eq_true_iff).trans (and_congr decide_eq_true_iff decide_eq_true_iff)

theorem transactLegal_iff (s : State) :
    transactLegal s = true ↔ payloadLength s ≤ 254 ∧ expectedLength s ≤ 254 :=
  (Bool.and_eq_true_iff).trans (and_congr decide_eq_true_iff decide_eq_true_iff)

/-- A command written while BUSY (R45). -/
theorem acceptCommand_busy {op : BitVec 4} {l : Bool} {f : State → State} {s : State}
    (h : s.busy = true) : acceptCommand op l f s = commandWhileBusy s := by
  simp [acceptCommand, h]

/-- A command accepted (R43). -/
theorem acceptCommand_accepted {op : BitVec 4} {l : Bool} {f : State → State} {s : State}
    (h : s.busy = false) (hl : l = true) :
    acceptCommand op l f s = f (clearResults { s with lastOp := op }) := by
  simp [acceptCommand, h, hl]

/-- A command refused (R43). -/
theorem acceptCommand_refused {op : BitVec 4} {l : Bool} {f : State → State} {s : State}
    (h : s.busy = false) (hl : l = false) :
    acceptCommand op l f s = refuse { s with lastOp := op } := by
  simp [acceptCommand, h, hl]

/-- Everything acceptance can answer. -/
theorem acceptCommand_cases (op : BitVec 4) (l : Bool) (f : State → State) (s : State) :
    (s.busy = true ∧ acceptCommand op l f s = commandWhileBusy s) ∨
    (s.busy = false ∧ l = true ∧ acceptCommand op l f s = f (clearResults { s with lastOp := op })) ∨
    (s.busy = false ∧ l = false ∧ acceptCommand op l f s = refuse { s with lastOp := op }) := by
  cases hb : s.busy
  · cases hl : l
    · exact .inr (.inr ⟨rfl, rfl, by simp [acceptCommand, hb]⟩)
    · exact .inr (.inl ⟨rfl, rfl, by simp [acceptCommand, hb]⟩)
  · exact .inl ⟨rfl, by simp [acceptCommand, hb]⟩

/-- Bytes read depend on the memory and the epoch only. -/
theorem readBytes_of_mem {s t : State} (hm : t.mem = s.mem) (he : t.epoch = s.epoch) (a n : Nat) :
    readBytes t a n = readBytes s a n :=
  readBytes_congr (fun _ _ => readBuffer_congr hm he _)

/-- Building a frame changes the memory and FLEN, and nothing else. -/
theorem buildFrame_eq (a : Byte) (s : State) :
    buildFrame a s = { s with mem := (buildFrame a s).mem, flen := (buildFrame a s).flen } := by
  show ({ writeBytes s fbufBase (frame a (payload s)) with flen := _ } : State) = _
  rw [writeBytes_eq]
  rfl

/-- Building a frame keeps the memory's canonical form. -/
theorem buildFrame_wf (a : Byte) {s : State} (h : s.mem.wf) : (buildFrame a s).mem.wf :=
  writeBytes_wf _ _ h

/-- The frame built is in FBUF, its length is in FLEN, and no byte outside it has changed (R180). -/
theorem buildFrame_spec (a : Byte) (s : State) (h : payloadLength s ≤ 254) :
    frameBytes (buildFrame a s) = frame a (payload s) ∧
    (buildFrame a s).flen.toNat = payloadLength s + 3 ∧
    buildFrame a s = { s with mem := (buildFrame a s).mem, flen := (buildFrame a s).flen } ∧
    ∀ b, (b < fbufBase ∨ fbufBase + (payloadLength s + 3) ≤ b) →
      readBuffer (buildFrame a s) b = readBuffer s b := by
  have hl : (frame a (payload s)).length = payloadLength s + 3 := by simp [payload]
  have hf : (buildFrame a s).flen.toNat = payloadLength s + 3 := by
    simp only [buildFrame, BitVec.toNat_ofNat]
    omega
  have hm : ∀ b, readBuffer (buildFrame a s) b =
      readBuffer (writeBytes s fbufBase (frame a (payload s))) b :=
    fun b => readBuffer_congr rfl rfl b
  refine ⟨?_, hf, ?_, fun b hb => ?_⟩
  · rw [frameBytes, hf, readBytes_congr (fun i _ => hm _), ← hl]
    refine readBytes_writeBytes _ _ _ (fun i hi => isBuffer_fbuf ?_)
    rw [hl] at hi
    show i < 257
    omega
  · exact buildFrame_eq a s
  · rw [hm b, readBuffer_writeBytes_outside _ _ _ _ (by rw [hl]; exact hb)]

end Sys2Proof.Machine
end

