-- ==== Sys2Proof/Laws/Sequencer.lean ====
section
/-! SUPPORT. The laws of SEQ: which phase's step `seqStep` is, what the operand reads depend on, and
what the echo detector and the reply capture take. -/

namespace Sys2Proof.Machine

/-! ### Operand reads -/

theorem payload_congr {s t : State} (hm : t.mem = s.mem) (he : t.epoch = s.epoch) (hp : t.plen = s.plen) :
    payload t = payload s := by
  unfold payload payloadLength
  rw [hp, readBytes_of_mem hm he]

theorem frameBytes_congr {s t : State} (hm : t.mem = s.mem) (he : t.epoch = s.epoch) (hf : t.flen = s.flen) :
    frameBytes t = frameBytes s := by
  unfold frameBytes
  rw [hf, readBytes_of_mem hm he]

theorem replyBytes_congr {s t : State} (hm : t.mem = s.mem) (he : t.epoch = s.epoch)
    (hx : t.explen = s.explen) : replyBytes t = replyBytes s := by
  unfold replyBytes replyLength expectedLength
  rw [hx, readBytes_of_mem hm he]

theorem replyPayload_congr {s t : State} (hm : t.mem = s.mem) (he : t.epoch = s.epoch)
    (hx : t.explen = s.explen) : replyPayload t = replyPayload s := by
  unfold replyPayload expectedLength
  rw [hx, readBytes_of_mem hm he]

/-- FBUF stays the frame of the payload when no byte of the buffers and neither length changes. -/
theorem sentFrame_congr {s t : State} {a : Byte} (hm : t.mem = s.mem) (he : t.epoch = s.epoch)
    (hp : t.plen = s.plen) (hf : t.flen = s.flen) (h : frameBytes s = frame a (payload s)) :
    frameBytes t = frame a (payload t) := by
  rw [frameBytes_congr hm he hf, payload_congr hm he hp, h]

/-- The payload depends on PBUF and PLEN only. -/
theorem payload_of_pbuf {s t : State} (hp : t.plen = s.plen)
    (h : ∀ i, i < payloadLength s → readBuffer t (pbufBase + i) = readBuffer s (pbufBase + i)) :
    payload t = payload s := by
  unfold payload
  rw [show payloadLength t = payloadLength s by rw [payloadLength, payloadLength, hp]]
  exact readBytes_congr h

/-- The frame depends on FBUF and FLEN only. -/
theorem frameBytes_of_fbuf {s t : State} (hf : t.flen = s.flen)
    (h : ∀ i, i < s.flen.toNat → readBuffer t (fbufBase + i) = readBuffer s (fbufBase + i)) :
    frameBytes t = frameBytes s := by
  unfold frameBytes
  rw [hf]
  exact readBytes_congr h

@[simp] theorem payload_length (s : State) : (payload s).length = payloadLength s := by
  simp [payload]

/-! ### The phase of a step -/

theorem seqStep_idle {s : State} (h : s.phase = phaseIdle) : seqStep s = s := by
  simp [seqStep, h, phaseIdle, phaseWakeDrain, phaseWakePulse, phaseWakeHold, phaseWakeWait, phaseTxDrain,
    phaseTxWrite, phaseTxFlush, phaseEchoWait, phaseReplyWait]

theorem seqStep_wakeDrain {s : State} (h : s.phase = phaseWakeDrain) : seqStep s = wakeDrainStep s := by
  simp [seqStep, h]

theorem seqStep_wakePulse {s : State} (h : s.phase = phaseWakePulse) : seqStep s = wakePulseStep s := by
  simp [seqStep, h, phaseWakeDrain, phaseWakePulse]

theorem seqStep_wakeHold {s : State} (h : s.phase = phaseWakeHold) : seqStep s = wakeHoldStep s := by
  simp [seqStep, h, phaseWakeDrain, phaseWakePulse, phaseWakeHold]

theorem seqStep_wakeWait {s : State} (h : s.phase = phaseWakeWait) : seqStep s = wakeWaitStep s := by
  simp [seqStep, h, phaseWakeDrain, phaseWakePulse, phaseWakeHold, phaseWakeWait]

theorem seqStep_txDrain {s : State} (h : s.phase = phaseTxDrain) : seqStep s = txDrainStep s := by
  simp [seqStep, h, phaseWakeDrain, phaseWakePulse, phaseWakeHold, phaseWakeWait, phaseTxDrain]

theorem seqStep_txWrite {s : State} (h : s.phase = phaseTxWrite) : seqStep s = txWriteStep s := by
  simp [seqStep, h, phaseWakeDrain, phaseWakePulse, phaseWakeHold, phaseWakeWait, phaseTxDrain,
    phaseTxWrite]

theorem seqStep_txFlush {s : State} (h : s.phase = phaseTxFlush) : seqStep s = txFlushStep s := by
  simp [seqStep, h, phaseWakeDrain, phaseWakePulse, phaseWakeHold, phaseWakeWait, phaseTxDrain,
    phaseTxWrite, phaseTxFlush]

theorem seqStep_echoWait {s : State} (h : s.phase = phaseEchoWait) : seqStep s = echoWaitStep s := by
  simp [seqStep, h, phaseWakeDrain, phaseWakePulse, phaseWakeHold, phaseWakeWait, phaseTxDrain,
    phaseTxWrite, phaseTxFlush, phaseEchoWait]

theorem seqStep_replyWait {s : State} (h : s.phase = phaseReplyWait) : seqStep s = replyWaitStep s := by
  simp [seqStep, h, phaseWakeDrain, phaseWakePulse, phaseWakeHold, phaseWakeWait, phaseTxDrain,
    phaseTxWrite, phaseTxFlush, phaseEchoWait, phaseReplyWait]

/-- The ten phases, and the reserved codes. -/
theorem phase_cases (p : BitVec 4) :
    p = phaseIdle ∨ p = phaseWakeDrain ∨ p = phaseWakePulse ∨ p = phaseWakeHold ∨ p = phaseWakeWait ∨
    p = phaseTxDrain ∨ p = phaseTxWrite ∨ p = phaseTxFlush ∨ p = phaseEchoWait ∨ p = phaseReplyWait ∨
    9 < p.toNat := by
  revert p
  decide

/-- A reserved code has no step (R124). -/
theorem seqStep_reserved {s : State} (h : 9 < s.phase.toNat) : seqStep s = s := by
  unfold seqStep
  repeat rw [if_neg (fun hc => by rw [hc] at h; revert h; decide)]

/-! ### What the waits take -/

theorem echoTake_le (s : State) : echoTake s ≤ s.rxq.length := Nat.min_le_left _ _

theorem replyTake_le (s : State) : replyTake s ≤ s.rxq.length := Nat.min_le_left _ _

/-- The echo count after a step's bytes, before any wrap. -/
theorem echoConsume_ecount (s : State) : (echoConsume s).ecount.toNat = s.ecount.toNat + echoTake s := by
  have h1 := s.flen.isLt
  have h2 := s.ecount.isLt
  have h3 : echoTake s ≤ s.flen.toNat - s.ecount.toNat := Nat.min_le_right _ _
  show (BitVec.ofNat 9 _).toNat = _
  rw [BitVec.toNat_ofNat]
  omega

/-- Some byte taken differs from the byte sent at its position. -/
theorem echoDiffers_iff (s : State) : echoDiffers s = true ↔
    ∃ j, j < echoTake s ∧ s.rxq[j]? ≠ some (readBuffer s (fbufBase + s.ecount.toNat + j)) := by
  have hk := echoTake_le s
  simp only [echoDiffers, bne_iff_ne, ne_eq]
  constructor
  · intro h
    by_contra hc
    apply h
    apply List.ext_getElem?
    intro i
    by_cases hi : i < echoTake s
    · rw [readBytes_getElem? _ _ _ _ hi, List.getElem?_take_of_lt hi]
      by_contra hne
      exact hc ⟨i, hi, hne⟩
    · rw [List.getElem?_eq_none (by simp; omega), List.getElem?_eq_none (by simp; omega)]
  · rintro ⟨j, hj, hne⟩ heq
    apply hne
    rw [← List.getElem?_take_of_lt hj, heq, readBytes_getElem? _ _ _ _ hj]

/-- Everything the reply capture's taking of bytes does, while `rcount` is within M (R229). -/
theorem replyConsume_spec (s : State) (k : Nat) (he : expectedLength s ≤ 254) (hk : k = replyTake s)
    (hr : s.rcount.toNat ≤ replyLength s) :
    replyConsume s = { s with mem := (replyConsume s).mem, rcount := (replyConsume s).rcount,
                              rxq := s.rxq.drop k } ∧
    (replyConsume s).rcount.toNat = s.rcount.toNat + k ∧
    readBytes (replyConsume s) rbufBase (s.rcount.toNat + k) =
      readBytes s rbufBase s.rcount.toNat ++ s.rxq.take k ∧
    ∀ a, (a < rbufBase + s.rcount.toNat ∨ rbufBase + s.rcount.toNat + k ≤ a) →
      readBuffer (replyConsume s) a = readBuffer s a := by
  subst hk
  have h1 := replyTake_le s
  have h2 : replyTake s ≤ replyLength s - s.rcount.toNat := Nat.min_le_right _ _
  have h3 : replyLength s ≤ 257 := Nat.add_le_add_right he 3
  have hlen : (s.rxq.take (replyTake s)).length = replyTake s := by simp [h1]
  have hm : ∀ a, readBuffer (replyConsume s) a = readBuffer
      (writeBytes (rxTake (replyTake s) s) (rbufBase + s.rcount.toNat) (s.rxq.take (replyTake s))) a :=
    fun a => readBuffer_congr rfl rfl a
  have ho : ∀ a, (a < rbufBase + s.rcount.toNat ∨ rbufBase + s.rcount.toNat + replyTake s ≤ a) →
      readBuffer (replyConsume s) a = readBuffer s a := fun a ha => by
    rw [hm, readBuffer_writeBytes_outside _ _ _ _ (by rw [hlen]; exact ha)]
    exact readBuffer_congr rfl rfl a
  refine ⟨?_, ?_, ?_, ho⟩
  · show ({ writeBytes _ _ _ with rcount := _ } : State) = _
    rw [writeBytes_eq]
    rfl
  · show (BitVec.ofNat 9 _).toNat = _
    rw [BitVec.toNat_ofNat]
    omega
  · rw [readBytes_add]
    congr 1
    · exact readBytes_congr (fun i hi => ho _ (.inl (by omega)))
    · rw [readBytes_congr (fun i _ => hm _)]
      conv_lhs => rw [show replyTake s = (s.rxq.take (replyTake s)).length from hlen.symm]
      rw [hlen]
      refine Eq.trans ?_ (readBytes_writeBytes (rxTake (replyTake s) s) (rbufBase + s.rcount.toNat)
        (s.rxq.take (replyTake s)) (fun i hi => ?_))
      · rw [hlen]
      · rw [hlen] at hi
        rw [Nat.add_assoc]
        exact isBuffer_rbuf (by show _ < 257; omega)

/-! ### Everything a step of SEQ can change -/

theorem replyConsume_eq (s : State) : replyConsume s =
    { s with mem := (replyConsume s).mem, rcount := (replyConsume s).rcount,
             rxq := s.rxq.drop (replyTake s) } := by
  show ({ writeBytes _ _ _ with rcount := _ } : State) = _
  rw [writeBytes_eq]
  rfl

/-- A SEQ step changes no operand, no flag but DONE, not LASTOP, not `now`, not the client and no
parameter. -/
theorem seqStep_eq (s : State) : seqStep s =
    { s with phase := (seqStep s).phase, t0 := (seqStep s).t0, rxq := (seqStep s).rxq,
             txIdle := (seqStep s).txIdle, phyOut := (seqStep s).phyOut, echo := (seqStep s).echo,
             ecount := (seqStep s).ecount, rcount := (seqStep s).rcount, mem := (seqStep s).mem,
             res := (seqStep s).res, done := (seqStep s).done, checks := (seqStep s).checks,
             liveTs := (seqStep s).liveTs, liveValid := (seqStep s).liveValid } := by
  rcases phase_cases s.phase with h | h | h | h | h | h | h | h | h | h | h
  · rw [seqStep_idle h]
  · rw [seqStep_wakeDrain h]; rfl
  · rw [seqStep_wakePulse h]; rfl
  · rw [seqStep_wakeHold h, wakeHoldStep]
    split <;> rfl
  · rw [seqStep_wakeWait h, wakeWaitStep]
    split
    · rfl
    · split <;> rfl
  · rw [seqStep_txDrain h]; rfl
  · rw [seqStep_txWrite h]; rfl
  · rw [seqStep_txFlush h, txFlushStep]
    split <;> rfl
  · rw [seqStep_echoWait h, echoWaitStep, echoVerdict]
    split
    · split <;> rfl
    · split <;> rfl
  · rw [seqStep_replyWait h, replyWaitStep, replyVerdict]
    have hc := replyConsume_eq s
    generalize replyConsume s = w at hc ⊢
    split
    · unfold replyValidate
      split <;> (rw [hc]; rfl)
    · split
      · rw [hc]; rfl
      · rw [hc]
  · rw [seqStep_reserved h]

end Sys2Proof.Machine
end

