-- ==== Sys2Proof/Laws/Step.lean ====
section
/-! SUPPORT. Everything one step of the machine can do, said once: `step_cases`. -/

namespace Sys2Proof.Machine

/-- The state after a command word's write (R43, R45); payload rows are no command words. -/
def commandWrite (i : Instr) (s : State) : State :=
  match i with
  | .encode => acceptCommand 0x1#4 (encodeLegal s) encodeAccept s
  | .validate => acceptCommand 0x2#4 (validateLegal s) validateAccept s
  | .ensureAwake => acceptCommand 0x3#4 true ensureAwakeAccept s
  | .transact => writeTransact s
  | .drain => writeDrain s
  | _ => s

/-- Every command word's write answers a next state. -/
theorem exec_command {i : Instr} (h : i.isCommand = true) (s : State) :
    exec i s = .next (commandWrite i s) := by
  cases i <;> first | (simp [Instr.isCommand] at h; done) | rfl

/-- Every request answers the state `SEND` leaves. -/
theorem exec_request {i : Instr} (h : i.isRequest = true) (s : State) :
    exec i s = .next (sendRequest i s) := by
  cases i <;> first | (simp [Instr.isRequest] at h; done) | rfl

/-- Everything an acknowledgement test can do. -/
theorem testAck_cases (i : Instr) (b : Bool) (u s : State) :
    (transactOk s = false ∧ testAck i b u s = s) ∨
    (transactOk s = true ∧ (replyBegins i s = false ∨ b = false) ∧ testAck i b u s = notAcknowledged s) ∨
    (transactOk s = true ∧ replyBegins i s = true ∧ b = true ∧ testAck i b u s = u) := by
  unfold testAck
  cases transactOk s <;> cases replyBegins i s <;> cases b <;> simp

/-- Decoding a query's reply changes the client and nothing else. -/
theorem decodeReply_eq (s : State) : decodeReply s = { s with client := (decodeReply s).client } := by
  unfold decodeReply storeDecoded
  repeat' split
  all_goals rfl

/-- An acknowledgement changes the client and nothing else. -/
theorem exec_ack {i : Instr} (h : i.isAck = true) (s : State) :
    ∃ c, exec i s = .next { s with client := c } := by
  have key : ∀ (i : Instr) (b : Bool) (u : State), u = { s with client := u.client } →
      ∃ c, (Host.Outcome.next (testAck i b u s) : Host.Outcome State Fault Refusal) =
        .next { s with client := c } := by
    intro i b u hu
    rcases testAck_cases i b u s with ⟨_, h⟩ | ⟨_, _, h⟩ | ⟨_, _, _, h⟩ <;> rw [h]
    · exact ⟨s.client, rfl⟩
    · exact ⟨_, rfl⟩
    · exact ⟨u.client, by rw [← hu]⟩
  cases i <;> simp only [Instr.isAck, Bool.false_eq_true] at h <;> clear h
  · exact key _ _ _ rfl
  · exact key _ _ _ rfl
  · exact key _ _ _ rfl
  · exact key _ _ _ rfl
  · exact key _ _ _ (decodeReply_eq s)

/-- Every row is a command, a request or an acknowledgement. -/
theorem instr_kinds (i : Instr) : i.isCommand = true ∨ i.isRequest = true ∨ i.isAck = true := by
  cases i <;> simp [Instr.isCommand, Instr.isRequest, Instr.isAck]

/-- Every instruction answers a next state: no row of the table faults or is refused. -/
theorem exec_next (i : Instr) (s : State) : ∃ t, exec i s = .next t := by
  rcases instr_kinds i with h | h | h
  · exact ⟨_, exec_command h s⟩
  · exact ⟨_, exec_request h s⟩
  · obtain ⟨c, hc⟩ := exec_ack h s
    exact ⟨_, hc⟩

/-- What one step does: `s` is the state before it, `b` the same state with its event taken (and, for a
poll, its read recorded), `t` the state after it. -/
inductive StepKind (s b t : State) : Prop
  /-- The block does nothing: a read, a PHY event, or the client alone. -/
  | quiet (h : t = { b with client := t.client, inputs := t.inputs, reads := t.reads, rxq := t.rxq,
                            txIdle := t.txIdle, rxDraws := t.rxDraws })
      (hq : t.rxq = b.rxq ∨ (∃ l, s.inputs.head? = some (.rx l) ∧ t.rxq = b.rxq ++ l) ∨
        ∃ v err l, s.inputs.head? = some (.line v err) ∧ l.length ≤ 1 ∧ t.rxq = b.rxq ++ l)
  /-- CLOCK sets `now`. -/
  | clock (ms : Nat) (hin : s.inputs.head? = some (.clockTo ms)) (hms : s.now.toNat ≤ ms)
      (h : t = { b with now := BitVec.ofNat 32 ms })
  /-- One SEQ step. -/
  | seq (h : t = { seqStep b with inputs := t.inputs })
  /-- RST. -/
  | reset (hin : resetNext s = true) (h : t = assertReset b)
  /-- A command word is written; the client may go on. -/
  | command (i : Instr) (hi : i.isCommand = true) (h : t = { commandWrite i b with client := t.client })
  /-- An illegal command word is written. -/
  | illegal (c : Byte) (h : t = illegalCommand c b)
  /-- An operand is written. -/
  | operand (a : Addr) (v : Byte) (h : t = writeOperand a v b)
  /-- A request is sent; the client may go on. -/
  | request (i : Instr) (hi : i.isRequest = true) (e : Byte)
      (h : t = { writeTransact (writeRequest (encode i) e b) with client := t.client })

/-- An instruction is run, and the client may go on. -/
theorem exec_kind {s b t : State} {i : Instr} (h : exec i b = .next t) (c : Client) :
    StepKind s b { t with client := c } := by
  rcases instr_kinds i with hi | hi | hi
  · rw [exec_command hi] at h
    cases h
    exact .command i hi rfl
  · rw [exec_request hi] at h
    cases h
    refine .request i hi (replyLenOf b.params.replyLen i) ?_
    unfold sendRequest
    generalize writeTransact _ = u
    rfl
  · obtain ⟨d, hd⟩ := exec_ack hi b
    rw [hd] at h
    cases h
    exact .quiet rfl (.inl rfl)

theorem exec_kind' {s b t : State} {i : Instr} (h : exec i b = .next t) : StepKind s b t :=
  exec_kind h t.client

/-- Only the client changes. -/
theorem client_kind (s b : State) (c : Client) : StepKind s b { b with client := c } :=
  .quiet rfl (.inl rfl)

/-! ### The client's moves change the client and run at most one instruction -/

theorem setJob_eq (j : Option Job) (s : State) : setJob j s = { s with client := (setJob j s).client } := rfl

/-- The end of an operation changes the job and nothing else. -/
theorem endJob_eq (j : Job) (s : State) : endJob j s = setJob (endJob j s).client.job s := by
  unfold endJob
  split
  · unfold renewSession
    split
    · split <;> rfl
    · rfl
  all_goals rfl

/-- The end of an attempt changes the job and nothing else. -/
theorem settleJob_eq_setJob (j : Job) (s : State) : settleJob j s = setJob (settleJob j s).client.job s := by
  unfold settleJob jobFailed
  split
  · exact endJob_eq j s
  · split
    · exact endJob_eq j s
    · rfl

theorem settleJob_eq (j : Job) (s : State) : settleJob j s = { s with client := (settleJob j s).client } := by
  rw [settleJob_eq_setJob]
  rfl

theorem andThen_next {o : Host.Outcome State Fault Refusal}
    {f : State → Host.Outcome State Fault Refusal} {t : State} (h : andThen o f = .next t) :
    ∃ u, o = .next u ∧ f u = .next t := by
  cases o with
  | next u => exact ⟨u, rfl, h⟩
  | fault r => cases h
  | refused r => cases h

theorem testReply_kind {s b t : State} {j : Job} (h : testReply j b = .next t) : StepKind s b t := by
  unfold testReply at h
  split at h
  · split at h
    · obtain ⟨u, hu, hf⟩ := andThen_next h
      cases hf
      rw [settleJob_eq]
      exact exec_kind hu _
    · cases h
      rw [settleJob_eq]
      exact client_kind s b _
  · cases h
    rw [settleJob_eq]
    exact client_kind s b _

theorem moveJob_kind {s b t : State} {j : Job} (h : moveJob j b = .next t) : StepKind s b t := by
  unfold moveJob at h
  split at h
  · split at h
    · cases h
      exact client_kind s b b.client
    · obtain ⟨u, hu, hf⟩ := andThen_next h
      cases hf
      exact exec_kind hu _
  · split at h <;> cases h
    · exact client_kind s b _
    · exact client_kind s b b.client
  · split at h
    · cases h
      exact client_kind s b b.client
    · obtain ⟨u, hu, hf⟩ := andThen_next h
      cases hf
      exact exec_kind hu _
  · split at h
    · unfold finishAttempt at h
      split at h
      · cases h
        rw [settleJob_eq]
        exact client_kind s b _
      · split at h
        · exact testReply_kind h
        · cases h
          rw [settleJob_eq]
          exact client_kind s b _
    · cases h
      exact client_kind s b b.client

theorem clientMove_kind {s b t : State} (h : clientMove b = .next t) : StepKind s b t := by
  unfold clientMove at h
  split at h
  · exact moveJob_kind h
  · cases h
    exact client_kind s b b.client

theorem startTask_eq (x : Task) (s : State) : startTask x s = { s with client := (startTask x s).client } := by
  unfold startTask
  split <;> rfl

theorem tickTask_eq (s : State) : tickTask s = { s with client := (tickTask s).client } := by
  unfold tickTask
  split
  · exact startTask_eq _ _
  · rfl

theorem clientTick_kind {s b t : State} {d : Bool} (h : clientTick d b = .next t) : StepKind s b t := by
  unfold clientTick at h
  split at h
  · cases h
  · cases h
    rw [tickTask_eq]
    unfold tickDrain
    split
    · exact .command .drain rfl rfl
    · exact client_kind s b _

/-! ### Every event -/

theorem phyEnqueue_eq (v : Byte) (s : State) :
    ∃ bs, bs.length ≤ 1 ∧ phyEnqueue v s = { s with rxq := s.rxq ++ bs } := by
  unfold phyEnqueue
  split
  · exact ⟨[v], by simp, rfl⟩
  · exact ⟨_, by cases Config.rxqOverflow s.rxDraws s.rxq v <;> simp, rfl⟩

/-- A byte on the line appends at most one byte to `rxq` (log 9). -/
theorem phyReceive_eq (v : Byte) (err : Bool) (s : State) :
    ∃ bs, bs.length ≤ 1 ∧
      phyReceive v err s = { s with rxq := s.rxq ++ bs, rxDraws := s.rxDraws + 1 } := by
  unfold phyReceive
  cases err
  · obtain ⟨bs, hl, h⟩ := phyEnqueue_eq v s
    exact ⟨bs, hl, by simp [h]⟩
  · cases he : Config.phyRxError s.rxDraws v with
    | none => exact ⟨[], by simp, by simp⟩
    | some w =>
      obtain ⟨bs, hl, h⟩ := phyEnqueue_eq w s
      exact ⟨bs, hl, by simp [h]⟩

theorem runEvent_kind {s : State} {e : Event} {rest : List Event} {t : State} (hs : s.inputs = e :: rest)
    (h : runEvent e { s with inputs := rest } = .next t) :
    ∃ b, b = { s with inputs := b.inputs, reads := b.reads } ∧ StepKind s b t := by
  by_cases hp : e = .poll
  · subst hp
    cases h
    simp only [clientPoll]
    split
    · exact ⟨_, rfl, .quiet (b := { s with inputs := rest }) rfl (.inl rfl)⟩
    · split
      · exact ⟨_, rfl, .quiet (b := { s with inputs := rest }) rfl (.inl rfl)⟩
      · exact ⟨clientRead regStatus { s with inputs := rest }, rfl, .seq rfl⟩
  · refine ⟨{ s with inputs := rest }, rfl, ?_⟩
    cases e with
    | write a v =>
      simp only [runEvent, clientWrite] at h
      split at h
      · split at h
        · exact exec_kind' h
        · cases h
          exact .illegal v rfl
      · cases h
        exact .operand a v rfl
    | read a =>
      cases h
      exact .quiet rfl (.inl rfl)
    | poll => exact absurd rfl hp
    | seq =>
      simp only [runEvent, Host.Outcome.next.injEq] at h
      subst h
      exact .seq rfl
    | rx bs =>
      cases h
      exact .quiet rfl (.inr (.inl ⟨bs, by simp [hs], rfl⟩))
    | txIdle b =>
      cases h
      exact .quiet rfl (.inl rfl)
    | clockTo ms =>
      simp only [runEvent, clockTo] at h
      split at h
      · cases h
      · cases h
        exact .clock ms (by simp [hs]) (by have hc := ‹¬ _›; exact Nat.le_of_not_lt hc) rfl
    | rst =>
      cases h
      exact .reset (by simp [resetNext, hs]) rfl
    | payload bs =>
      simp only [runEvent, clientPayload] at h
      split at h
      · exact exec_kind' h
      · cases h
    | line v err =>
      obtain ⟨bs, hl, hb⟩ := phyReceive_eq v err { s with inputs := rest }
      simp only [runEvent, hb, Host.Outcome.next.injEq] at h
      subst h
      exact .quiet rfl (.inr (.inr ⟨v, err, bs, by simp [hs], hl, rfl⟩))
    | phyRemove k =>
      simp only [runEvent, phyRemove] at h
      split at h
      · cases h
        exact .quiet rfl (.inl rfl)
      · cases h
    | call c =>
      simp only [runEvent, clientCall] at h
      split at h
      · cases h
      · cases h
        exact client_kind _ _ _
    | tick d => exact clientTick_kind h
    | client => exact clientMove_kind h

/-- Everything one step of the machine can do. -/
theorem step_cases {s t : State} (h : step s = .next t) :
    reservedFault s = none ∧
    ∃ b, b = { s with inputs := b.inputs, reads := b.reads } ∧ StepKind s b t := by
  unfold step at h
  split at h
  · cases h
  · refine ⟨‹_›, ?_⟩
    split at h
    · exact runEvent_kind ‹_› h
    · refine ⟨s, rfl, ?_⟩
      unfold idleMove at h
      split at h
      · simp only [Host.Outcome.next.injEq] at h
        subst h
        exact .seq rfl
      · exact clientMove_kind h

/-- A step whose event is RST asserts the reset, and nothing else happens (R340). -/
theorem step_reset {s t : State} (h : step s = .next t) (hr : resetNext s = true) :
    ∃ rest, t = assertReset { s with inputs := rest } := by
  unfold resetNext at hr
  unfold step at h
  split at h
  · cases h
  · split at h
    · rename_i e rest hs
      rw [hs] at hr
      simp only [List.head?_cons, beq_iff_eq, Option.some.injEq] at hr
      subst hr
      cases h
      exact ⟨rest, rfl⟩
    · rename_i hs
      rw [hs] at hr
      cases hr

end Sys2Proof.Machine
end

