-- ==== Sys2Proof/Laws/Client.lean ====
section
/-! SUPPORT. The laws of the client: the block's operations leave it alone, a request changes what it
awaits, an acknowledgement what it knows, and a job's moves leave the session and the snapshots alone. -/

namespace Sys2Proof.Machine

/-! ### The block leaves the client alone -/

theorem writeOperand_client (a : Addr) (v : Byte) (s : State) : (writeOperand a v s).client = s.client := by
  unfold writeOperand
  split
  · rfl
  · unfold storeOperand
    repeat' split
    all_goals first
      | rfl
      | rw [writeBuffer_eq]

theorem writeOperands_client (a : Addr) (bs : List Byte) (s : State) :
    (writeOperands a bs s).client = s.client := by
  induction bs generalizing a s with
  | nil => rfl
  | cons b bs ih => rw [writeOperands, ih, writeOperand_client]

theorem acceptCommand_client {op : BitVec 4} {l : Bool} {f : State → State}
    (hf : ∀ u, (f u).client = u.client) (s : State) : (acceptCommand op l f s).client = s.client := by
  rcases acceptCommand_cases op l f s with ⟨_, h⟩ | ⟨_, _, h⟩ | ⟨_, _, h⟩ <;> rw [h]
  · rfl
  · rw [hf]
    rfl
  · rfl

theorem buildFrame_client (a : Byte) (s : State) : (buildFrame a s).client = s.client := by
  show (writeBytes _ _ _).client = _
  rw [writeBytes_eq]

theorem writeTransact_client (s : State) : (writeTransact s).client = s.client :=
  acceptCommand_client (f := transactAccept) (fun u => buildFrame_client Config.addrOut u) s

theorem writeDrain_client (s : State) : (writeDrain s).client = s.client :=
  acceptCommand_client (f := drainAccept) (fun _ => rfl) s

theorem commandWrite_client (i : Instr) (s : State) : (commandWrite i s).client = s.client := by
  cases i
  · exact acceptCommand_client (f := encodeAccept) (fun u => buildFrame_client u.addr u) s
  · exact acceptCommand_client (f := validateAccept) (fun _ => rfl) s
  · refine acceptCommand_client (fun u => ?_) s
    unfold ensureAwakeAccept
    split <;> rfl
  · exact writeTransact_client s
  · exact writeDrain_client s
  all_goals rfl

/-! ### Requests and acknowledgements -/

/-- A request sets what the client awaits, and nothing else of the client. -/
theorem sendRequest_client (i : Instr) (s : State) :
    (sendRequest i s).client = { s.client with pending := some i, outcome := .undecided } := by
  show ({ (writeTransact _).client with pending := some i, outcome := .undecided } : Client) = _
  rw [writeTransact_client, writeRequest, writeOperand_client, writeOperand_client, writeOperands_client]

/-- Decoding a query's reply settles it, or leaves the session and the snapshots. -/
theorem decodeReply_client (s : State) : (decodeReply s).client.session = s.client.session ∧
    ((decodeReply s).client.snapshots = s.client.snapshots ∨
      ((decodeReply s).client.pending = none ∧ (decodeReply s).client.outcome = .confirmed)) := by
  unfold decodeReply storeDecoded
  repeat' split
  all_goals first
    | exact ⟨rfl, .inr ⟨rfl, rfl⟩⟩
    | exact ⟨rfl, .inl rfl⟩

/-- What an acknowledgement leaves: the session and the snapshots as they were, or nothing awaited and a
confirmed outcome, when TRANSACT had returned OK and something was awaited. -/
theorem exec_ack_client {i : Instr} (h : i.isAck = true) {s t : State} (he : exec i s = .next t) :
    (t.client.session = s.client.session ∧ t.client.snapshots = s.client.snapshots) ∨
    (transactOk s = true ∧ replyBegins i s = true ∧ s.client.pending ≠ none ∧
      t.client.pending = none ∧ t.client.outcome = .confirmed) := by
  have key : ∀ (b : Bool) (u : State), exec i s = .next (testAck i b u s) →
      (b = true → s.client.pending ≠ none) →
      ((u.client.session = s.client.session ∧ u.client.snapshots = s.client.snapshots) ∨
        (u.client.pending = none ∧ u.client.outcome = .confirmed)) →
      (t.client.session = s.client.session ∧ t.client.snapshots = s.client.snapshots) ∨
      (transactOk s = true ∧ replyBegins i s = true ∧ s.client.pending ≠ none ∧
        t.client.pending = none ∧ t.client.outcome = .confirmed) := by
    intro b u hx hb hu
    rw [hx, Host.Outcome.next.injEq] at he
    rcases testAck_cases i b u s with ⟨_, hc⟩ | ⟨_, _, hc⟩ | ⟨h1, h2, h3, hc⟩ <;> rw [← he, hc]
    · exact .inl ⟨rfl, rfl⟩
    · exact .inl ⟨rfl, rfl⟩
    · exact hu.imp id (fun hu => ⟨h1, h2, hb h3, hu⟩)
  cases i <;> simp only [Instr.isAck, Bool.false_eq_true] at h <;> clear h
  · exact key _ _ rfl (fun hb => by simp [of_decide_eq_true hb]) (.inr ⟨rfl, rfl⟩)
  · exact key _ _ rfl (fun hb => by simp [of_decide_eq_true hb]) (.inr ⟨rfl, rfl⟩)
  · exact key _ _ rfl (fun hb => by simp [of_decide_eq_true hb]) (.inr ⟨rfl, rfl⟩)
  · refine key _ _ rfl (fun hb hn => ?_) (.inr ⟨rfl, rfl⟩)
    simp [checkAcknowledged, hn] at hb
  · refine key _ _ rfl (fun hb hn => ?_) ?_
    · simp [queryAwaited, hn] at hb
    · obtain ⟨h1, h2⟩ := decodeReply_client s
      exact h2.imp (fun h2 => ⟨h1, h2⟩) id

/-- No instruction leaves time on a session that is off (R268). -/
theorem exec_session_off {i : Instr} {s t : State} (he : exec i s = .next t)
    (h : s.client.session.mode = .off → s.client.session.remaining = 0) :
    t.client.session.mode = .off → t.client.session.remaining = 0 := by
  have key : ∀ (b : Bool) (u : State), exec i s = .next (testAck i b u s) →
      (u.client.session.mode = .off → u.client.session.remaining = 0) →
      t.client.session.mode = .off → t.client.session.remaining = 0 := by
    intro b u hx hu
    rw [hx, Host.Outcome.next.injEq] at he
    rcases testAck_cases i b u s with ⟨_, hc⟩ | ⟨_, _, hc⟩ | ⟨_, _, _, hc⟩ <;> rw [← he, hc]
    · exact h
    · exact h
    · exact hu
  rcases instr_kinds i with hi | hi | hi
  · rw [exec_command hi] at he
    cases he
    rw [commandWrite_client]
    exact h
  · rw [exec_request hi] at he
    cases he
    rw [sendRequest_client]
    exact h
  · cases i <;> simp only [Instr.isAck, Bool.false_eq_true] at hi <;> clear hi
    · exact key _ _ rfl (fun _ => rfl)
    · exact key _ _ rfl (fun hc => absurd hc (by simp [confirmSession, sessionOf]))
    · exact key _ _ rfl (fun hc => absurd hc (by simp [confirmSession, sessionOf]))
    · refine key _ _ rfl (fun hc => ?_)
      have := h hc
      simp [confirmSession, decrementSession, this]
    · refine key _ _ rfl ?_
      rw [(decodeReply_client s).1]
      exact h

/-! ### Jobs and ticks -/

/-- A CHECK that is over is followed by the renewal test, any other operation by nothing (R269). -/
theorem endJob_check {j : Job} {c : Byte} (h : j.request = .check c) (s : State) :
    endJob j s = renewSession (setJob none s) := by
  simp only [endJob, h]

theorem endJob_other {j : Job} (h : ∀ c, j.request ≠ .check c) (s : State) : endJob j s = setJob none s := by
  unfold endJob
  split
  · exact absurd ‹_› (h _)
  all_goals rfl

/-- What the end of an attempt does: the operation ends, or another attempt starts (R268). -/
theorem settleJob_cases (j : Job) (s : State) :
    ((s.client.outcome = .confirmed ∨ j.attempts ≤ 1) ∧ settleJob j s = endJob j s) ∨
    (s.client.outcome ≠ .confirmed ∧ 1 < j.attempts ∧
      settleJob j s = setJob (some { j with attempts := j.attempts - 1, stage := .wake }) s) := by
  unfold settleJob jobFailed
  split
  · exact .inl ⟨.inl ‹_›, rfl⟩
  · split
    · exact .inl ⟨.inr ‹_›, rfl⟩
    · exact .inr ⟨‹_›, Nat.lt_of_not_le ‹_›, rfl⟩

/-- The end of an attempt leaves everything of the client but the job alone. -/
theorem settleJob_client (j : Job) (s : State) :
    (settleJob j s).client = { s.client with job := (settleJob j s).client.job } := by
  rw [settleJob_eq_setJob]
  rfl

theorem testReply_session_off {s t : State} {j : Job} (he : testReply j s = .next t)
    (h : s.client.session.mode = .off → s.client.session.remaining = 0) :
    t.client.session.mode = .off → t.client.session.remaining = 0 := by
  unfold testReply at he
  split at he
  · split at he
    · obtain ⟨u, hu, hf⟩ := andThen_next he
      cases hf
      rw [settleJob_client]
      exact exec_session_off hu h
    · cases he
      rw [settleJob_client]
      exact h
  · cases he
    rw [settleJob_client]
    exact h

theorem clientMove_session_off {s t : State} (he : clientMove s = .next t)
    (h : s.client.session.mode = .off → s.client.session.remaining = 0) :
    t.client.session.mode = .off → t.client.session.remaining = 0 := by
  unfold clientMove at he
  split at he
  · unfold moveJob at he
    split at he
    · split at he
      · cases he
        exact h
      · obtain ⟨u, hu, hf⟩ := andThen_next he
        cases hf
        exact exec_session_off (t := u) hu h
    · split at he <;> cases he <;> exact h
    · split at he
      · cases he
        exact h
      · obtain ⟨u, hu, hf⟩ := andThen_next he
        cases hf
        exact exec_session_off (t := u) hu h
    · split at he
      · unfold finishAttempt at he
        split at he
        · cases he
          rw [settleJob_client]
          exact h
        · split at he
          · exact testReply_session_off he h
          · cases he
            rw [settleJob_client]
            exact h
      · cases he
        exact h
  · cases he
    exact h

/-- A tick changes the job, the round robin and the record of runs, and nothing else of the client. -/
theorem tickTask_client (s : State) :
    (tickTask s).client = { s.client with
      job := (tickTask s).client.job, nextTask := (tickTask s).client.nextTask,
      lastRun := (tickTask s).client.lastRun } := by
  unfold tickTask
  split
  · unfold startTask
    split <;> rfl
  · rfl

end Sys2Proof.Machine
end

