-- ==== Sys2Proof/Laws/Decode.lean ====
section
/-! SUPPORT. The laws of the decoder: a table word gives its bytes back, and what each part of the
decoder answers. -/

namespace Sys2Proof

/-- A word's bytes, from an accumulator. -/
theorem tableWord_cons_aux (acc : Nat) (bs : List Byte) :
    bs.foldl (fun w b => w * 256 + b.toNat) acc = acc * 256 ^ bs.length + tableWord bs := by
  induction bs generalizing acc with
  | nil => simp [tableWord]
  | cons b bs ih =>
    simp only [List.foldl_cons, tableWord, List.length_cons]
    rw [ih, ih (0 * 256 + b.toNat)]
    ring

theorem tableWord_lt (bs : List Byte) : tableWord bs < 256 ^ bs.length := by
  induction bs with
  | nil => simp [tableWord]
  | cons b bs ih =>
    have : tableWord (b :: bs) = b.toNat * 256 ^ bs.length + tableWord bs := by
      simp only [tableWord, List.foldl_cons]
      rw [tableWord_cons_aux]
      simp [tableWord]
    rw [this]
    have h2 : b.toNat < 256 := b.isLt
    have : (b.toNat + 1) * 256 ^ bs.length ≤ 256 * 256 ^ bs.length := Nat.mul_le_mul_right _ (by omega)
    rw [List.length_cons, pow_succ]
    nlinarith

theorem highFirst_mod (n w x : Nat) : highFirst n (x * 256 ^ n + w) = highFirst n w := by
  induction n generalizing w x with
  | zero => rfl
  | succ n ih =>
    simp only [highFirst]
    congr 1
    · apply BitVec.eq_of_toNat_eq
      simp only [Nat.shiftRight_eq_div_pow, BitVec.toNat_ofNat]
      rw [show x * 256 ^ (n+1) + w = w + (x * 256) * 2 ^ (8*n) by rw [pow_mul]; ring]
      rw [Nat.add_mul_div_right _ _ (by positivity)]
      rw [show x * 256 = x * 2^8 by norm_num, Nat.add_mul_mod_self_right]
    · rw [show x * 256 ^ (n+1) + w = (x * 256) * 256 ^ n + w by ring, ih]

theorem highFirst_tableWord (bs : List Byte) : highFirst bs.length (tableWord bs) = bs := by
  induction bs with
  | nil => rfl
  | cons b bs ih =>
    have h : tableWord (b :: bs) = b.toNat * 256 ^ bs.length + tableWord bs := by
      simp only [tableWord, List.foldl_cons]
      rw [tableWord_cons_aux]
      simp [tableWord]
    simp only [List.length_cons, highFirst]
    rw [h, highFirst_mod, ih]
    congr 1
    apply BitVec.eq_of_toNat_eq
    have := tableWord_lt bs
    simp only [Nat.shiftRight_eq_div_pow, BitVec.toNat_ofNat]
    rw [show (2:Nat)^(8*bs.length) = 256 ^ bs.length by rw [pow_mul]; norm_num]
    rw [Nat.add_comm, Nat.add_mul_div_right _ _ (by positivity), Nat.div_eq_of_lt this]
    have := b.isLt
    omega

/-- The number the table gives bytes gives them back, whatever the bytes. -/
theorem tableBytes_tableWord (bs : List Byte) : tableBytes (8 * bs.length) (tableWord bs) = bs := by
  simp [tableBytes, highFirst_tableWord]

/-! ### What the parts of the decoder answer -/

theorem decodeOp_command {op : BitVec 4} {i : Instr} (h : decodeOp op = .ok i) : i.isCommand = true := by
  unfold decodeOp at h
  repeat' split at h
  all_goals cases h
  all_goals rfl

theorem decodeCommand_command {c : Byte} {i : Instr} (h : decodeCommand c = .ok i) :
    i.isCommand = true := by
  unfold decodeCommand at h
  split at h
  · exact decodeOp_command h
  · cases h

theorem decodeNoArgument_ok {c : Byte} {args : List Byte} {i j : Instr}
    (h : decodeNoArgument c args i = .ok j) : j = i ∧ args = [] := by
  cases args <;> cases h
  exact ⟨rfl, rfl⟩

theorem decodeOneArgument_ok {c : Byte} {args : List Byte} {f : Byte → Instr} {j : Instr}
    (h : decodeOneArgument c args f = .ok j) : ∃ m, j = f m ∧ args = [m] := by
  rcases args with _ | ⟨m, _ | ⟨x, y⟩⟩ <;> cases h
  exact ⟨m, rfl, rfl⟩

theorem decodeEchoAck_ok {c : Byte} {args : List Byte} {f : Byte → Instr} {j : Instr}
    (h : decodeEchoAck c args f = .ok j) : ∃ m tail, j = f m ∧ args = m :: tail := by
  rcases args with _ | ⟨m, tail⟩ <;> cases h
  exact ⟨m, tail, rfl, rfl⟩

theorem decodeCheck_ok {c : Byte} {args : List Byte} {j : Instr} (h : decodeCheck c args = .ok j) :
    ∃ m, j = .check m ∧ args = [m, 0x00#8] := by
  rcases args with _ | ⟨m, _ | ⟨z, _ | ⟨x, y⟩⟩⟩
  · cases h
  · cases h
  · simp only [decodeCheck] at h
    split at h
    · rename_i hz
      cases h
      exact ⟨m, rfl, by rw [hz]⟩
    · cases h
  · cases h

theorem decodeQuery_ok {c : Byte} {args : List Byte} {j : Instr} (h : decodeQuery c args = .ok j) :
    encode j = 0x50#8 :: args ∧ j.isCommand = false := by
  rcases args with _ | ⟨m, _ | ⟨x, y⟩⟩
  · cases h
  · simp only [decodeQuery, decodeQueryByte] at h
    repeat' split at h
    all_goals cases h
    all_goals (subst_vars; exact ⟨rfl, rfl⟩)
  · cases h

end Sys2Proof
end

