-- ==== Sys2Proof/Laws/Registers.lean ====
section
/-! SUPPORT. The laws of the register space: where the buffers are, and what a byte read or written at
a buffer address is. -/

namespace Sys2Proof.Machine

/-- The buffers' addresses, as numbers (R47). -/
theorem isBuffer_iff (a : Nat) : isBuffer a = true ↔
    (0x100 ≤ a ∧ a < 0x1FE) ∨ (0x200 ≤ a ∧ a < 0x301) ∨ (0x400 ≤ a ∧ a < 0x501) := by
  simp [isBuffer, inWindow, pbufBase, pbufSize, fbufBase, fbufSize, rbufBase, rbufSize]
  omega

/-- The client's buffers' addresses, as numbers (R47). -/
theorem isClientBuffer_iff (a : Nat) : isClientBuffer a = true ↔
    (0x100 ≤ a ∧ a < 0x1FE) ∨ (0x200 ≤ a ∧ a < 0x301) := by
  simp [isClientBuffer, inWindow, pbufBase, pbufSize, fbufBase, fbufSize]

theorem isBuffer_of_client {a : Nat} (h : isClientBuffer a = true) : isBuffer a = true := by
  rw [isClientBuffer_iff] at h
  rw [isBuffer_iff]
  tauto

/-- No buffer address is a register's. -/
theorem ne_register {a r : Addr} (h : isBuffer a.toNat = true) (hr : r.toNat < 0x100) : a ≠ r := by
  rintro rfl
  rw [isBuffer_iff] at h
  omega

/-- A buffer address reads the buffer byte. -/
theorem readRegister_buffer (s : State) (a : Addr) (h : isBuffer a.toNat = true) :
    readRegister s a = readBuffer s a.toNat := by
  unfold readRegister
  repeat rw [if_neg (ne_register h (by decide))]

/-- A write to PBUF or FBUF while IDLE is a buffer write. -/
theorem writeOperand_buffer {s : State} (a : Addr) (v : Byte) (hb : s.busy = false)
    (h : isClientBuffer a.toNat = true) : writeOperand a v s = writeBuffer s a.toNat v := by
  rw [writeOperand, if_neg (by simp [hb]), storeOperand]
  repeat rw [if_neg (ne_register (isBuffer_of_client h) (by decide))]
  rw [if_pos h]

/-- The value of two bit vectors side by side. -/
theorem append_toNat {n m : Nat} (x : BitVec n) (y : BitVec m) :
    (x ++ y).toNat = x.toNat * 2 ^ m + y.toNat := by
  rw [BitVec.toNat_append, ← Nat.shiftLeft_add_eq_or_of_lt y.isLt, Nat.shiftLeft_eq]

/-- An operand write changes the operand registers and the client's buffers only. -/
theorem writeOperand_eq (a : Addr) (v : Byte) (s : State) :
    writeOperand a v s = { s with plen := (writeOperand a v s).plen
                                  explen := (writeOperand a v s).explen
                                  addr := (writeOperand a v s).addr
                                  flen := (writeOperand a v s).flen
                                  mem := (writeOperand a v s).mem } := by
  unfold writeOperand
  split
  · rfl
  · unfold storeOperand
    repeat' split
    all_goals first
      | rfl
      | (unfold writeBuffer
         split <;> rfl)

/-- Everything an operand write can do: nothing while BUSY, else an operand register or a byte. -/
theorem writeOperand_cases (a : Addr) (v : Byte) (s : State) :
    (s.busy = true ∧ writeOperand a v s = s) ∨
    (s.busy = false ∧
      writeOperand a v s =
        { s with plen := (writeOperand a v s).plen, explen := (writeOperand a v s).explen,
                 addr := (writeOperand a v s).addr, flen := (writeOperand a v s).flen,
                 mem := (writeOperand a v s).mem } ∧
      (s.mem.wf → (writeOperand a v s).mem.wf)) := by
  cases hb : s.busy
  · right
    refine ⟨rfl, ?_⟩
    simp only [writeOperand, hb]
    unfold storeOperand
    repeat' split
    all_goals first
      | exact ⟨rfl, fun h => h⟩
      | (refine ⟨?_, writeBuffer_wf _ _⟩; rw [writeBuffer_eq])
  · left
    simp [writeOperand, hb]

end Sys2Proof.Machine
end

