-- ==== Sys2Proof/Laws/Effects.lean ====
section
/-! SUPPORT. The frame of each shared operation: which fields a command write, an operand write and a
request can change; and what a step can do while the block is BUSY. -/

namespace Sys2Proof.Machine

/-- An acceptance changes what its accept step changes, the results it clears, LASTOP and CMD_ERR. -/
theorem acceptCommand_frame (op : BitVec 4) (l : Bool) (f : State → State)
    (hf : ∀ u, ∃ v : State, f u = { u with
        mem := v.mem, flen := v.flen, phase := v.phase, res := v.res, done := v.done,
        checks := v.checks, woke := v.woke, rxq := v.rxq } ∧ (v.rxq = u.rxq ∨ v.rxq = []))
    (s : State) :
    ∃ v : State, acceptCommand op l f s = { s with
        mem := v.mem, flen := v.flen, phase := v.phase, res := v.res, done := v.done,
        checks := v.checks, woke := v.woke, rxq := v.rxq, lastOp := v.lastOp, cmdErr := v.cmdErr,
        echo := v.echo, ecount := v.ecount, rcount := v.rcount } ∧ (v.rxq = s.rxq ∨ v.rxq = []) := by
  rcases acceptCommand_cases op l f s with ⟨_, h⟩ | ⟨_, _, h⟩ | ⟨_, _, h⟩ <;> rw [h]
  · exact ⟨commandWhileBusy s, rfl, .inl rfl⟩
  · obtain ⟨v, hv, hq⟩ := hf (clearResults { s with lastOp := op })
    refine ⟨f (clearResults { s with lastOp := op }), ?_, ?_⟩
    · rw [hv]
      rfl
    · rw [hv]
      exact hq
  · exact ⟨refuse { s with lastOp := op }, rfl, .inl rfl⟩

/-- The write of TRANSACT's command word. -/
theorem writeTransact_frame (s : State) :
    ∃ v : State, writeTransact s = { s with
        mem := v.mem, flen := v.flen, phase := v.phase, res := v.res, done := v.done,
        checks := v.checks, woke := v.woke, rxq := v.rxq, lastOp := v.lastOp, cmdErr := v.cmdErr,
        echo := v.echo, ecount := v.ecount, rcount := v.rcount } ∧ (v.rxq = s.rxq ∨ v.rxq = []) := by
  apply acceptCommand_frame
  intro u
  refine ⟨transactAccept u, ?_, .inl ?_⟩ <;> (unfold transactAccept; rw [buildFrame_eq])

/-- The write of any command word changes no operand but FLEN, not the marker, the wire or the clock. -/
theorem commandWrite_frame (i : Instr) (s : State) :
    ∃ v : State, commandWrite i s = { s with
        mem := v.mem, flen := v.flen, phase := v.phase, res := v.res, done := v.done,
        checks := v.checks, woke := v.woke, rxq := v.rxq, lastOp := v.lastOp, cmdErr := v.cmdErr,
        echo := v.echo, ecount := v.ecount, rcount := v.rcount } ∧ (v.rxq = s.rxq ∨ v.rxq = []) := by
  cases i
  · apply acceptCommand_frame
    intro u
    refine ⟨encodeAccept u, ?_, .inl ?_⟩ <;> (unfold encodeAccept finish; rw [buildFrame_eq])
  · apply acceptCommand_frame
    intro u
    exact ⟨validateAccept u, rfl, .inl rfl⟩
  · apply acceptCommand_frame
    intro u
    refine ⟨ensureAwakeAccept u, ?_, .inl ?_⟩ <;> (unfold ensureAwakeAccept; split <;> rfl)
  · exact writeTransact_frame s
  · apply acceptCommand_frame
    intro u
    exact ⟨drainAccept u, rfl, .inr rfl⟩
  all_goals exact ⟨s, rfl, .inl rfl⟩

/-- A command write while BUSY sets CMD_ERR at most. -/
theorem commandWrite_busy (i : Instr) {s : State} (h : s.busy = true) :
    commandWrite i s = { s with cmdErr := (commandWrite i s).cmdErr } := by
  cases i
  · exact (acceptCommand_busy (op := 0x1#4) (l := encodeLegal s) (f := encodeAccept) h).trans
      (by rw [show commandWrite .encode s = _ from acceptCommand_busy h]; rfl)
  · exact (acceptCommand_busy (op := 0x2#4) (l := validateLegal s) (f := validateAccept) h).trans
      (by rw [show commandWrite .validate s = _ from acceptCommand_busy h]; rfl)
  · exact (acceptCommand_busy (op := 0x3#4) (l := true) (f := ensureAwakeAccept) h).trans
      (by rw [show commandWrite .ensureAwake s = _ from acceptCommand_busy h]; rfl)
  · exact (acceptCommand_busy (op := 0x4#4) (l := transactLegal s) (f := transactAccept) h).trans
      (by rw [show commandWrite .transact s = _ from acceptCommand_busy h]; rfl)
  · exact (acceptCommand_busy (op := 0x5#4) (l := true) (f := drainAccept) h).trans
      (by rw [show commandWrite .drain s = _ from acceptCommand_busy h]; rfl)
  all_goals rfl

/-- An operand write changes operands and the memory, and nothing else. -/
theorem writeOperand_frame (a : Addr) (v : Byte) (s : State) :
    ∃ w : State, writeOperand a v s =
      { s with plen := w.plen, explen := w.explen, addr := w.addr, flen := w.flen, mem := w.mem } := by
  rcases writeOperand_cases a v s with ⟨_, h⟩ | ⟨_, h, _⟩
  · exact ⟨s, h⟩
  · exact ⟨_, h⟩

theorem writeOperand_busy (a : Addr) (v : Byte) {s : State} (h : s.busy = true) : writeOperand a v s = s := by
  simp [writeOperand, h]

theorem writeOperands_busy (a : Addr) (bs : List Byte) {s : State} (h : s.busy = true) :
    writeOperands a bs s = s := by
  induction bs generalizing a with
  | nil => rfl
  | cons b bs ih => rw [writeOperands, writeOperand_busy _ _ h, ih]

theorem writeOperands_frame (a : Addr) (bs : List Byte) (s : State) :
    ∃ w : State, writeOperands a bs s =
      { s with plen := w.plen, explen := w.explen, addr := w.addr, flen := w.flen, mem := w.mem } := by
  induction bs generalizing a s with
  | nil => exact ⟨s, rfl⟩
  | cons b bs ih =>
    obtain ⟨w, hw⟩ := writeOperand_frame a b s
    obtain ⟨x, hx⟩ := ih (a + 1#12) (writeOperand a b s)
    refine ⟨x, ?_⟩
    rw [writeOperands, hx, hw]

/-- The register writes of a request change operands and the memory, and nothing else. -/
theorem writeRequest_frame (p : List Byte) (e : Byte) (s : State) :
    ∃ w : State, writeRequest p e s =
      { s with plen := w.plen, explen := w.explen, addr := w.addr, flen := w.flen, mem := w.mem } := by
  obtain ⟨x, hx⟩ := writeOperands_frame (BitVec.ofNat 12 pbufBase) p s
  obtain ⟨y, hy⟩ := writeOperand_frame regPlen (BitVec.ofNat 8 p.length)
    (writeOperands (BitVec.ofNat 12 pbufBase) p s)
  obtain ⟨z, hz⟩ := writeOperand_frame regExplen e (writeOperand regPlen (BitVec.ofNat 8 p.length)
    (writeOperands (BitVec.ofNat 12 pbufBase) p s))
  refine ⟨z, ?_⟩
  unfold writeRequest
  rw [hz, hy, hx]

/-- The payload written to PBUF while IDLE. -/
theorem writeOperands_pbuf (bs : List Byte) (k : Nat) (s : State) (hb : s.busy = false)
    (hl : k + bs.length ≤ 254) :
    writeOperands (BitVec.ofNat 12 (pbufBase + k)) bs s = writeBytes s (pbufBase + k) bs := by
  induction bs generalizing k s with
  | nil => rfl
  | cons b bs ih =>
    simp only [List.length_cons] at hl
    have h1 : (BitVec.ofNat 12 (pbufBase + k)).toNat = pbufBase + k := by
      rw [BitVec.toNat_ofNat]
      unfold pbufBase
      omega
    have hc : isClientBuffer (BitVec.ofNat 12 (pbufBase + k)).toNat = true := by
      rw [h1, isClientBuffer_iff]
      unfold pbufBase
      omega
    have h2 : BitVec.ofNat 12 (pbufBase + k) + 1#12 = BitVec.ofNat 12 (pbufBase + (k + 1)) := by
      apply BitVec.eq_of_toNat_eq
      rw [BitVec.toNat_add, h1]
      simp
      unfold pbufBase
      omega
    rw [writeOperands, writeOperand_buffer _ _ hb hc, h1, h2,
      ih (k + 1) _ (by rw [writeBuffer_eq]; exact hb) (by omega)]
    rfl

/-- The two lengths written while IDLE. -/
theorem writeOperand_lengths (n e : Byte) {s : State} (h : s.busy = false) :
    writeOperand regExplen e (writeOperand regPlen n s) = { s with plen := n, explen := e } := by
  have h1 : writeOperand regPlen n s = { s with plen := n } := by simp [writeOperand, storeOperand, h]
  have h2 : ∀ u : State, u.busy = false → writeOperand regExplen e u = { u with explen := e } :=
    fun u hu => by simp [writeOperand, storeOperand, hu, regPlen, regExplen]
  rw [h1]
  exact h2 _ h

/-- Everything a request's register writes do while IDLE: the payload is in PBUF, its length in PLEN, the
reply's length in EXPLEN, and nothing else has changed. -/
theorem writeRequest_spec (p : List Byte) (e : Byte) {s : State} (hb : s.busy = false)
    (hp : p.length ≤ 254) :
    writeRequest p e s = { s with mem := (writeRequest p e s).mem, plen := BitVec.ofNat 8 p.length,
                                  explen := e } ∧
    payload (writeRequest p e s) = p ∧ payloadLength (writeRequest p e s) = p.length ∧
    ∀ a, (a < pbufBase ∨ pbufBase + p.length ≤ a) →
      readBuffer (writeRequest p e s) a = readBuffer s a := by
  have h0 := writeOperands_pbuf p 0 s hb (by omega)
  rw [Nat.add_zero] at h0
  have hw := writeBytes_eq s pbufBase p
  have hr := readBytes_writeBytes s pbufBase p (fun i hi => isBuffer_pbuf (by unfold pbufSize; omega))
  have ho := fun a => readBuffer_writeBytes_outside s pbufBase a p
  have hq : writeRequest p e s =
      { writeBytes s pbufBase p with plen := BitVec.ofNat 8 p.length, explen := e } := by
    unfold writeRequest
    rw [h0]
    generalize writeBytes s pbufBase p = w at hw
    have hwb : w.busy = false := by rw [hw]; exact hb
    exact writeOperand_lengths _ _ hwb
  have hl : payloadLength (writeRequest p e s) = p.length := by
    rw [hq]
    show (BitVec.ofNat 8 p.length).toNat = _
    rw [BitVec.toNat_ofNat]
    omega
  have hm : ∀ a, readBuffer (writeRequest p e s) a = readBuffer (writeBytes s pbufBase p) a :=
    fun a => by
      rw [hq]
      exact readBuffer_congr rfl rfl a
  refine ⟨?_, ?_, hl, fun a ha => ?_⟩
  · rw [hq, hw]
  · unfold payload
    rw [hl, readBytes_congr (fun i _ => hm _), hr]
  · rw [hm, ho a ha]

/-- A request's writes while BUSY set CMD_ERR, and nothing else. -/
theorem request_busy (p : List Byte) (e : Byte) {s : State} (h : s.busy = true) :
    writeTransact (writeRequest p e s) = { s with cmdErr := true } := by
  unfold writeRequest
  rw [writeOperands_busy _ _ h, writeOperand_busy _ _ h, writeOperand_busy _ _ h]
  exact acceptCommand_busy h

/-- A request's writes and its command. -/
theorem request_frame (p : List Byte) (e : Byte) (s : State) :
    ∃ v : State, writeTransact (writeRequest p e s) = { s with
        plen := v.plen, explen := v.explen, addr := v.addr, mem := v.mem, flen := v.flen,
        phase := v.phase, res := v.res, done := v.done, checks := v.checks, woke := v.woke,
        rxq := v.rxq, lastOp := v.lastOp, cmdErr := v.cmdErr, echo := v.echo, ecount := v.ecount,
        rcount := v.rcount } ∧ (v.rxq = s.rxq ∨ v.rxq = []) := by
  obtain ⟨w, hw⟩ := writeRequest_frame p e s
  obtain ⟨v, hv, hq⟩ := writeTransact_frame (writeRequest p e s)
  have hq' : (writeTransact (writeRequest p e s)).rxq = s.rxq ∨
      (writeTransact (writeRequest p e s)).rxq = [] := by
    rw [hv]
    rw [hw] at hq ⊢
    exact hq
  refine ⟨writeTransact (writeRequest p e s), ?_, hq'⟩
  rw [hv, hw]

/-- While BUSY a step is a SEQ step, or RST, or leaves the block alone but for CMD_ERR. -/
theorem step_busy {s t : State} (h : step s = .next t) (hb : s.busy = true) :
    (resetNext s = true ∧ ∃ rest, t = assertReset { s with inputs := rest }) ∨
    (resetNext s = false ∧ ∃ b, b = { s with inputs := b.inputs, reads := b.reads } ∧
      t = { seqStep b with inputs := t.inputs }) ∨
    (resetNext s = false ∧
      t = { s with cmdErr := t.cmdErr, client := t.client, inputs := t.inputs, reads := t.reads,
                   rxq := t.rxq, txIdle := t.txIdle, rxDraws := t.rxDraws, now := t.now }) := by
  cases hr : resetNext s
  · refine .inr ?_
    obtain ⟨_, b, he, k⟩ := step_cases h
    have hbb : b.busy = true := by rw [he]; exact hb
    cases k with
    | quiet ht _ => exact .inr ⟨rfl, by rw [ht, he]⟩
    | clock ms _ _ ht => exact .inr ⟨rfl, by rw [ht, he]⟩
    | seq ht => exact .inl ⟨rfl, b, he, ht⟩
    | reset hr' ht =>
      rw [hr] at hr'
      cases hr'
    | command i _ ht => exact .inr ⟨rfl, by rw [ht, commandWrite_busy i hbb, he]⟩
    | illegal c ht =>
      refine .inr ⟨rfl, ?_⟩
      rw [ht, illegalCommand, if_pos hbb, he]
      rfl
    | operand a v ht => exact .inr ⟨rfl, by rw [ht, writeOperand_busy a v hbb, he]⟩
    | request i _ e ht => exact .inr ⟨rfl, by rw [ht, request_busy _ _ hbb, he]⟩
  · exact .inl ⟨rfl, step_reset h hr⟩

/-- While IDLE a step never leaves the block in a wait on the echo or the reply: it stays IDLE, or starts
a wake or a TRANSACT. -/
theorem step_idle {s t : State} (h : step s = .next t) (hb : s.busy = false) :
    t.phase = phaseIdle ∨ t.phase = phaseWakeDrain ∨ t.phase = phaseTxDrain := by
  have hp := busy_eq_false.1 hb
  have hacc : ∀ (op : BitVec 4) (l : Bool) (f : State → State) (b : State), b.busy = false →
      (∀ u : State, u.phase = phaseIdle →
        (f u).phase = phaseIdle ∨ (f u).phase = phaseWakeDrain ∨ (f u).phase = phaseTxDrain) →
      (acceptCommand op l f b).phase = phaseIdle ∨ (acceptCommand op l f b).phase = phaseWakeDrain ∨
        (acceptCommand op l f b).phase = phaseTxDrain := by
    intro op l f b hbb hf
    rcases acceptCommand_cases op l f b with ⟨hc, _⟩ | ⟨_, _, he⟩ | ⟨_, _, he⟩
    · rw [hbb] at hc
      cases hc
    · rw [he]
      exact hf _ (busy_eq_false.1 hbb)
    · rw [he]
      exact .inl (busy_eq_false.1 hbb)
  obtain ⟨_, b, he, k⟩ := step_cases h
  have hbb : b.busy = false := by rw [he]; exact hb
  have hbp := busy_eq_false.1 hbb
  cases k with
  | quiet ht _ => exact .inl (by rw [ht]; exact hbp)
  | clock ms _ _ ht => exact .inl (by rw [ht]; exact hbp)
  | seq ht => exact .inl (by rw [ht, seqStep_idle hbp]; exact hbp)
  | reset _ ht => exact .inl (by rw [ht]; rfl)
  | command i hi ht =>
    rw [ht]
    cases i <;> simp only [Instr.isCommand, Bool.false_eq_true] at hi
    · exact hacc _ _ _ b hbb (fun _ _ => .inl rfl)
    · exact hacc _ _ _ b hbb (fun _ _ => .inl rfl)
    · refine hacc _ _ _ b hbb (fun u _ => ?_)
      unfold ensureAwakeAccept
      split
      · exact .inl rfl
      · exact .inr (.inl rfl)
    · exact hacc _ _ _ b hbb (fun _ _ => .inr (.inr rfl))
    · exact hacc _ _ _ b hbb (fun _ _ => .inl rfl)
  | illegal c ht =>
    rw [ht, illegalCommand, if_neg (by rw [hbb]; decide)]
    exact .inl hbp
  | operand a v ht =>
    obtain ⟨w, hw⟩ := writeOperand_frame a v b
    rw [ht, hw]
    exact .inl hbp
  | request i _ e ht =>
    rw [ht]
    obtain ⟨w, hw⟩ := writeRequest_frame (encode i) e b
    exact hacc _ _ _ _ (by rw [hw]; exact hbb) (fun _ _ => .inr (.inr rfl))

end Sys2Proof.Machine
end

