-- ==== Sys2Proof/Laws/PerInstr.lean ====
section
/-! SUPPORT. The per-instruction family: every instruction's bytes match its row of the opcode table. -/

namespace Sys2Proof.Laws.EncodingMatchesTable

/-- The bytes are as many as the row's, and their masked bits are the row's match. -/
abbrev Statement (i : Instr) : Prop :=
  (encode i).length = (opcodeRow i).nbytes ∧
  tableWord (encode i) &&& (opcodeRow i).mask = (opcodeRow i).pattern

theorem encode : Statement .encode := by decide
theorem validate : Statement .validate := by decide
theorem ensureAwake : Statement .ensureAwake := by decide
theorem transact : Statement .transact := by decide
theorem drain : Statement .drain := by decide
theorem off : Statement .off := by decide
theorem offAck : Statement .offAck := by decide
theorem heatOn (minutes : Byte) : Statement (.heatOn minutes) := by
  revert minutes
  decide
theorem heatOnAck (minutes : Byte) : Statement (.heatOnAck minutes) := by
  revert minutes
  decide
theorem ventOn (minutes : Byte) : Statement (.ventOn minutes) := by
  revert minutes
  decide
theorem ventOnAck (minutes : Byte) : Statement (.ventOnAck minutes) := by
  revert minutes
  decide
theorem check (code : Byte) : Statement (.check code) := by
  revert code
  decide
theorem checkAck : Statement .checkAck := by decide
theorem queryFlags : Statement .queryFlags := by decide
theorem queryDrive : Statement .queryDrive := by decide
theorem querySensors : Statement .querySensors := by decide
theorem queryCounters : Statement .queryCounters := by decide
theorem queryState : Statement .queryState := by decide
theorem queryAck : Statement .queryAck := by decide

end Sys2Proof.Laws.EncodingMatchesTable
end

