-- ==== Sys2Proof/Machine/Script.lean ====
section
/-! DEFINITION. The script syntax and its pseudo-operations (30_encoding R127, R128): each statement's
expansion into events. Nothing else of the model uses this file. -/

namespace Sys2Proof.Machine

/-- A buffer's name (R127). -/
inductive Buffer where
  | pbuf
  | fbuf
  | rbuf
deriving DecidableEq, Repr

/-- A buffer's first address (R47). -/
def Buffer.base : Buffer → Nat
  | .pbuf => pbufBase
  | .fbuf => fbufBase
  | .rbuf => rbufBase

/-- A buffer's size (R36). -/
def Buffer.size : Buffer → Nat
  | .pbuf => pbufSize
  | .fbuf => fbufSize
  | .rbuf => rbufSize

/-- The statements of R127 and the pseudo-operations of R128. -/
inductive Stmt where
  /-- `W <REG> <byte>`. -/
  | w (a : Addr) (v : Byte)
  /-- `WB <BUF>[i] <b0> <b1> ...`. -/
  | wb (b : Buffer) (i : Nat) (bs : List Byte)
  /-- `C <MNEMONIC>`. -/
  | c (i : Instr)
  /-- `R <REG>`. -/
  | r (a : Addr)
  /-- `POLL`. -/
  | poll
  /-- `ENV t=<ms>`. -/
  | envTime (ms : Nat)
  /-- `ENV rx <b0> <b1> ...`. -/
  | envRx (bs : List Byte)
  /-- `ENV tx_idle <0/1>`. -/
  | envTxIdle (b : Bool)
  /-- `STEP`. -/
  | step
  /-- `SEND p0 .. p(n-1) EXPECT e`. -/
  | send (p : List Byte) (e : Byte)
  /-- `FRAME s r p0 .. p(n-1)`. -/
  | frame (sender receiver : BitVec 4) (p : List Byte)
  /-- `CHECK e b0 .. b(L-1)`. -/
  | check (e : Byte) (bs : List Byte)
  /-- `WAKE`. -/
  | wake
  /-- `FLUSHRX`. -/
  | flushRx
deriving DecidableEq, Repr

/-- Byte writes at ascending addresses (R84, R127). -/
def writeEvents (a : Nat) : List Byte → List Event
  | [] => []
  | b :: bs => .write (BitVec.ofNat 12 a) b :: writeEvents (a + 1) bs

/-- `C <MNEMONIC>`: the write of its command word to CMD (R127). -/
def commandEvent (i : Instr) : Event := .write regCmd (commandWord i)

/-- The events of a statement (R127, R128). -/
def Stmt.expand : Stmt → List Event
  | .w a v => [.write a v]
  | .wb b i bs => writeEvents (b.base + i) bs
  | .c i => [commandEvent i]
  | .r a => [.read a]
  | .poll => [.poll]
  | .envTime ms => [.clockTo ms]
  | .envRx bs => [.rx bs]
  | .envTxIdle b => [.txIdle b]
  | .step => [.seq]
  | .send p e =>
    writeEvents pbufBase p ++
      [.write regPlen (BitVec.ofNat 8 p.length), .write regExplen e, commandEvent .transact, .poll]
  | .frame sender receiver p =>
    writeEvents pbufBase p ++
      [.write regPlen (BitVec.ofNat 8 p.length), .write regAddr (sender ++ receiver), commandEvent .encode]
  | .check e bs =>
    writeEvents fbufBase bs ++
      [.write regFlenLo (countLow (BitVec.ofNat 9 bs.length)),
       .write regFlenHi (countHigh (BitVec.ofNat 9 bs.length)), .write regExplen e, commandEvent .validate]
  | .wake => [commandEvent .ensureAwake, .poll]
  | .flushRx => [commandEvent .drain]

/-- A script's events, statement by statement. -/
def expandScript (script : List Stmt) : List Event := script.flatMap Stmt.expand

/-- A statement names a command, stays inside its buffer, and gives a count that fits (R127, R128). -/
def Stmt.wf : Stmt → Bool
  | .c i => i.isCommand
  | .wb b i bs => decide (i + bs.length ≤ b.size)
  | .send p _ => decide (p.length ≤ Config.maxPayload)
  | .frame _ _ p => decide (p.length ≤ Config.maxPayload)
  | .check _ bs => decide (bs.length ≤ Config.maxFrame)
  | .w _ _ | .r _ | .poll | .envTime _ | .envRx _ | .envTxIdle _ | .step | .wake | .flushRx => true

end Sys2Proof.Machine
end

