-- ==== Sys2Proof/Tests/Slice0.lean ====
section
/-! SUPPORT. The tests. Expected values are those of 95_test_vectors (S, V, K, N, T, Q, W) and words
written out from the encodings of 30_encoding and 44_payloads; the last part shows, for each statement
that has hypotheses, that concrete states and operands meet them. -/

namespace Sys2Proof.Tests

open Sys2Proof.Machine

/-! ### The test states -/

/-- The open client parameters of these tests: each reply's length, data after the first byte. -/
def params : Config.ClientParams :=
  { replyLen := { off := 1#8, heatOn := 2#8, ventOn := 2#8, check := 3#8, flags := 3#8, drive := 4#8,
                  sensors := 4#8, counters := 9#8, state := 2#8 }
    dataPos := { flags := 2, drive := 1, sensors := 1, counters := 1, state := 1 }
    voltageCal := { x1 := 0, y1 := 0, x2 := 100, y2 := 10 }
    resistanceCal := { x1 := 0, y1 := 0, x2 := 100, y2 := 1 }
    ownPeriod := .nothing
    checkTailTested := false }

/-- The reset state with the free values it holds fixed, at `now` = 1000. -/
def base : State := { State.reset with t0 := 0#32, now := 1000#32, params := params }

/-- `base` with a payload in PBUF, its length, and the reply's length. -/
def loaded (p : List Byte) (e : Byte) : State :=
  { writeBytes base pbufBase p with plen := BitVec.ofNat 8 p.length, explen := e }

/-- `base` with raw bytes in FBUF, FLEN and EXPLEN. -/
def raw (f : List Byte) (e : Byte) : State :=
  { writeBytes base fbufBase f with flen := BitVec.ofNat 9 f.length, explen := e }

/-- A TRANSACT of a payload, its frame built, in a phase entered at `now` = 1000. -/
def sending (p : List Byte) (e : Byte) (phase : BitVec 4) : State :=
  { transactAccept (clearResults { loaded p e with lastOp := 4#4 }) with phase := phase, t0 := 1000#32 }

/-- The frame HEAT_ON(5) sends (S4). -/
def heatFrame : List Byte := [0xF4#8, 0x03#8, 0x21#8, 0x05#8, 0xD3#8]

/-- The frame OFF sends (S3). -/
def offFrame : List Byte := [0xF4#8, 0x02#8, 0x10#8, 0xE6#8]

/-- A TRANSACT of HEAT_ON(5) whose echo was complete at 1000, waiting for the reply. -/
def replying : State :=
  { sending [0x21#8, 0x05#8] 0x02#8 phaseReplyWait with ecount := 5#9 }

/-- A client awaiting the reply to `i`; TRANSACT has returned OK, the reply payload in RBUF. -/
def awaiting (i : Instr) (reply : List Byte) : State :=
  { writeBytes base (rbufBase + 2) reply with
    explen := BitVec.ofNat 8 reply.length
    done := true
    lastOp := 4#4
    client := { Client.initial with pending := some i, session := { mode := .heating, remaining := 25 } } }

/-- What a test looks at: something of the next state. -/
def look {α : Type} (o : Host.Outcome State Fault Refusal) (f : State → α) : Option α :=
  match o with
  | .next t => some (f t)
  | .fault _ => none
  | .refused _ => none

/-- STATUS, RESULT, CHECKS, ECHO, PHASE. -/
def regs (t : State) : List Byte :=
  [readRegister t regStatus, readRegister t regResult, readRegister t regChecks, readRegister t regEcho,
   readRegister t regPhase]

/-! ### WellFormed: one ill-formed term for each check -/

theorem test_wf_check_code : (Instr.check 0x20#8).wf = false ∧ (Instr.check 0x21#8).wf = true := by decide
theorem test_wf_stmt_command : (Stmt.c .off).wf = false := by decide
theorem test_wf_stmt_buffer : (Stmt.wb .pbuf 253 [0x00#8, 0x00#8]).wf = false := by decide
theorem test_wf_stmt_send : (Stmt.send (List.replicate 255 0x00#8) 0x00#8).wf = false := by
  simp only [Stmt.wf, List.length_replicate]
  decide
theorem test_wf_stmt_frame : (Stmt.frame 0xF#4 0x4#4 (List.replicate 255 0x00#8)).wf = false := by
  simp only [Stmt.wf, List.length_replicate]
  decide
theorem test_wf_stmt_check : (Stmt.check 0x00#8 (List.replicate 258 0x00#8)).wf = false := by
  simp only [Stmt.wf, List.length_replicate]
  decide

/-! ### Decoding: words written out from the spec's encodings -/

/-- R120: the five command words. -/
theorem test_decode_commands :
    decodeTableWord 8 0b00000001 = some .encode ∧ decodeTableWord 8 0b00000010 = some .validate ∧
    decodeTableWord 8 0b00000011 = some .ensureAwake ∧ decodeTableWord 8 0b00000100 = some .transact ∧
    decodeTableWord 8 0b00000101 = some .drain := by decide

/-- R261 to R265: the commands' payloads, payload[0] in the top byte. -/
theorem test_decode_requests :
    decodeTableWord 8 0b00010000 = some .off ∧
    decodeTableWord 16 0b00100001_00000101 = some (.heatOn 5#8) ∧
    decodeTableWord 16 0b00100010_00000001 = some (.ventOn 1#8) ∧
    decodeTableWord 24 0b01000100_00100001_00000000 = some (.check 0x21#8) := by decide

/-- R266: the five queries. -/
theorem test_decode_queries :
    decodeTableWord 16 0b01010000_00000011 = some .queryFlags ∧
    decodeTableWord 16 0b01010000_00000100 = some .queryDrive ∧
    decodeTableWord 16 0b01010000_00000101 = some .querySensors ∧
    decodeTableWord 16 0b01010000_00000110 = some .queryCounters ∧
    decodeTableWord 16 0b01010000_00000111 = some .queryState := by decide

/-- R260 to R266: the acknowledgements. -/
theorem test_decode_acks :
    decodeTableWord 8 0b10010000 = some .offAck ∧
    decodeTableWord 16 0b10100001_00000101 = some (.heatOnAck 5#8) ∧
    decodeTableWord 16 0b10100010_00000001 = some (.ventOnAck 1#8) ∧
    decodeTableWord 8 0b11000100 = some .checkAck ∧
    decodeTableWord 8 0b11010000 = some .queryAck := by decide

/-- R123, R125, R261, R265, R266: rejections by name. -/
theorem test_decode_rejects :
    decodeCommand 0x14#8 = .error .reservedBits ∧ decodeCommand 0x06#8 = .error (.reservedOp 0x6#4) ∧
    decodePayload [0x10#8, 0x00#8] = .error (.wrongLength 0x10#8) ∧
    decodePayload [0x44#8, 0x21#8, 0x01#8] = .error .nonzeroArgument ∧
    decodePayload [0x50#8, 0x08#8] = .error (.unknownQuery 0x08#8) ∧
    decodePayload [0x11#8] = .error (.unknownCode 0x11#8) ∧ decodePayload [] = .error .noBytes := by decide

/-- No two rows of the table match one word of their size. -/
theorem test_rows_disjoint :
    ([Instr.encode, .validate, .ensureAwake, .transact, .drain, .off, .offAck, .heatOn 0#8, .heatOnAck 0#8,
      .ventOn 0#8, .ventOnAck 0#8, .check 0#8, .checkAck, .queryFlags, .queryDrive, .querySensors,
      .queryCounters, .queryState, .queryAck].map opcodeRow).Pairwise (fun r q =>
        r.nbytes ≠ q.nbytes ∨ r.pattern &&& (r.mask &&& q.mask) ≠ q.pattern &&& (r.mask &&& q.mask)) := by
  decide

/-! ### The commands -/

/-- S1: ENCODE. -/
theorem test_encode_S1 :
    look (exec .encode { loaded [0x21#8, 0x05#8] 0x00#8 with addr := 0x4F#8 }) frameBytes =
      some [0x4F#8, 0x03#8, 0x21#8, 0x05#8, 0x68#8] ∧
    look (exec .encode { loaded [0x21#8, 0x05#8] 0x00#8 with addr := 0x4F#8 }) regs =
      some [0x02#8, 0x10#8, 0x00#8, 0x00#8, 0x00#8] := by decide

/-- S16: ENCODE refused. -/
theorem test_encode_S16 :
    look (exec .encode { base with plen := 0xFF#8 }) regs =
      some [0x06#8, 0x14#8, 0x00#8, 0x00#8, 0x00#8] := by decide

/-- V4: COUNT comes before ADDRESS. -/
theorem test_validate_V4 :
    look (exec .validate (raw heatFrame 0x03#8)) regs =
      some [0x02#8, 0x23#8, 0x1C#8, 0x00#8, 0x00#8] := by decide

/-- V6: one byte 00 passes CSUM only. -/
theorem test_validate_V6 :
    look (exec .validate (raw [0x00#8] 0x00#8)) regs =
      some [0x02#8, 0x23#8, 0x18#8, 0x00#8, 0x00#8] := by decide

/-- K3: one millisecond past the hold-off. -/
theorem test_ensureAwake_K3 :
    look (exec .ensureAwake { base with liveValid := true, liveTs := 1000#32, now := 31001#32 }) regs =
      some [0x19#8, 0x30#8, 0x00#8, 0x00#8, 0x01#8] := by decide

/-- K4: the clock has wrapped. -/
theorem test_ensureAwake_K4 :
    look (exec .ensureAwake { base with liveValid := true, liveTs := 0xFFFFF000#32, now := 0x100#32 }) regs =
      some [0x12#8, 0x30#8, 0x00#8, 0x00#8, 0x00#8] := by decide

/-- T1, at acceptance: the frame TRANSACT sends, whatever ADDR is. -/
theorem test_transact_T1 :
    look (exec .transact { loaded [0x21#8, 0x05#8] 0x02#8 with addr := 0x00#8 }) frameBytes = some heatFrame ∧
    look (exec .transact { loaded [0x21#8, 0x05#8] 0x02#8 with addr := 0x00#8 }) regs =
      some [0x01#8, 0x40#8, 0x00#8, 0x00#8, 0x05#8] := by decide

/-- T15: TRANSACT refused, nothing sent. -/
theorem test_transact_T15 :
    look (exec .transact { base with explen := 0xFF#8 }) regs =
      some [0x06#8, 0x44#8, 0x00#8, 0x00#8, 0x00#8] := by decide

/-- N1: DRAIN. -/
theorem test_drain_N1 :
    look (exec .drain { base with rxq := [0x00#8, 0x4F#8] }) (fun t => (t.rxq, regs t)) =
      some ([], [0x02#8, 0x50#8, 0x00#8, 0x00#8, 0x00#8]) := by decide

/-- N3: acceptance clears CHECKS and ECHO. -/
theorem test_drain_N3 :
    look (exec .drain { base with echo := { eshort := false, ediff := true },
                                  checks := checkFrame [0x4F#8, 0x03#8, 0xA1#8, 0x04#8, 0xE8#8] 2 })
      regs = some [0x02#8, 0x50#8, 0x00#8, 0x00#8, 0x00#8] := by decide

/-! ### The phases -/

/-- K10: one byte is taken. -/
theorem test_wakeWait_K10 :
    (seqStep { base with phase := phaseWakeWait, rxq := [0x00#8, 0x00#8] }).rxq = [0x00#8] := by decide

/-- K11, K12: elapsed 49 waits, elapsed 50 ends. -/
theorem test_wakeWait_K11_K12 :
    (seqStep { base with phase := phaseWakeWait, t0 := 100030#32, now := 100079#32 }).phase = phaseWakeWait ∧
    (seqStep { base with phase := phaseWakeWait, t0 := 100030#32, now := 100080#32 }).phase = phaseIdle := by
  decide

/-- T2: a collided echo. -/
theorem test_echo_T2 :
    regs (seqStep { sending [0x21#8, 0x05#8] 0x02#8 phaseEchoWait with
      rxq := [0xF4#8, 0x03#8, 0x21#8, 0x07#8, 0xD3#8] }) = [0x02#8, 0x41#8, 0x00#8, 0x02#8, 0x00#8] := by
  decide

/-- T5: the echo arrives at the deadline, and its bytes are taken first. -/
theorem test_echo_T5 :
    regs (seqStep { sending [0x10#8] 0x01#8 phaseEchoWait with rxq := offFrame, now := 1100#32 }) =
      [0x01#8, 0x40#8, 0x00#8, 0x00#8, 0x09#8] := by decide

/-- T12: a stray byte shifts the compare and leaves a byte in the queue. -/
theorem test_echo_T12 :
    (seqStep { sending [0x10#8] 0x01#8 phaseEchoWait with rxq := 0x55#8 :: offFrame }).rxq = [0xE6#8] ∧
    regs (seqStep { sending [0x10#8] 0x01#8 phaseEchoWait with rxq := 0x55#8 :: offFrame }) =
      [0x02#8, 0x41#8, 0x00#8, 0x02#8, 0x00#8] := by decide

/-- T1, T11: the reply, a surplus byte after it; LIVE_TS = 1030. -/
theorem test_reply_T1_T11 :
    regs (seqStep { replying with rxq := [0x4F#8, 0x03#8, 0xA1#8, 0x05#8, 0xE8#8, 0xAA#8], now := 1030#32 }) =
      [0x12#8, 0x40#8, 0x0F#8, 0x00#8, 0x00#8] ∧
    (seqStep { replying with rxq := [0x4F#8, 0x03#8, 0xA1#8, 0x05#8, 0xE8#8, 0xAA#8], now := 1030#32 }).rxq =
      [0xAA#8] ∧
    readRegister (seqStep { replying with rxq := [0x4F#8, 0x03#8, 0xA1#8, 0x05#8, 0xE8#8, 0xAA#8],
                                          now := 1030#32 }) regLiveTs1 = 0x04#8 := by decide

/-- T7: a partial reply at the deadline. -/
theorem test_reply_T7 :
    regs (seqStep { replying with rxq := [0x4F#8, 0x04#8], now := 1200#32 }) =
      [0x02#8, 0x42#8, 0x00#8, 0x00#8, 0x00#8] := by decide

/-! ### The command interface -/

/-- Q2, Q4: illegal command words. -/
theorem test_command_Q2_Q4 :
    look (clientWrite regCmd 0x14#8 base) regs = some [0x06#8, 0x44#8, 0x00#8, 0x00#8, 0x00#8] ∧
    look (clientWrite regCmd 0x0F#8 base) regs = some [0x06#8, 0xF4#8, 0x00#8, 0x00#8, 0x00#8] := by decide

/-- Q5, Q6: writes while BUSY. -/
theorem test_command_Q5_Q6 :
    look (clientWrite regCmd 0x01#8 (sending [] 0x00#8 phaseTxDrain)) regs =
      some [0x05#8, 0x40#8, 0x00#8, 0x00#8, 0x05#8] ∧
    look (clientWrite regPlen 0x07#8 (sending [] 0x00#8 phaseTxDrain)) State.plen = some 0x00#8 := by decide

/-- Q9, Q10, Q11: partial, reserved and read-only registers. -/
theorem test_registers_Q9_Q11 :
    look (clientWrite regFlenHi 0xFF#8 base) (fun t => readRegister t regFlenHi) = some 0x01#8 ∧
    look (clientWrite 0x0F0#12 0xAB#8 base) (fun t => readRegister t 0x0F0#12) = some 0x00#8 ∧
    look (clientWrite regStatus 0xFF#8 base) (fun t => readRegister t regStatus) = some 0x00#8 := by decide

/-! ### The client's rows -/

/-- S3: OFF. -/
theorem test_off_S3 : look (exec .off base) frameBytes = some offFrame := by decide

/-- S4: HEAT_ON(5). -/
theorem test_heatOn_S4 : look (exec (.heatOn 5#8) base) frameBytes = some heatFrame := by decide

/-- S6: VENT_ON(1). -/
theorem test_ventOn_S6 :
    look (exec (.ventOn 1#8) base) frameBytes = some [0xF4#8, 0x03#8, 0x22#8, 0x01#8, 0xD4#8] := by decide

/-- S7: CHECK of a heating session. -/
theorem test_check_S7 :
    look (exec (.check 0x21#8) base) frameBytes =
      some [0xF4#8, 0x04#8, 0x44#8, 0x21#8, 0x00#8, 0x95#8] := by decide

/-- S8: QUERY_FLAGS. -/
theorem test_queryFlags_S8 :
    look (exec .queryFlags base) frameBytes = some [0xF4#8, 0x03#8, 0x50#8, 0x03#8, 0xA4#8] := by decide

/-- S9: QUERY_DRIVE. -/
theorem test_queryDrive_S9 :
    look (exec .queryDrive base) frameBytes = some [0xF4#8, 0x03#8, 0x50#8, 0x04#8, 0xA3#8] := by decide

/-- S10: QUERY_SENSORS. -/
theorem test_querySensors_S10 :
    look (exec .querySensors base) frameBytes = some [0xF4#8, 0x03#8, 0x50#8, 0x05#8, 0xA2#8] := by decide

/-- S11: QUERY_COUNTERS. -/
theorem test_queryCounters_S11 :
    look (exec .queryCounters base) frameBytes = some [0xF4#8, 0x03#8, 0x50#8, 0x06#8, 0xA1#8] := by decide

/-- S12: QUERY_STATE. -/
theorem test_queryState_S12 :
    look (exec .queryState base) frameBytes = some [0xF4#8, 0x03#8, 0x50#8, 0x07#8, 0xA0#8] := by decide

/-- R261, R268: OFF's acknowledgement clears the session. -/
theorem test_offAck :
    look (exec .offAck (awaiting .off [0x90#8])) (fun t => t.client.session) =
      some { mode := .off, remaining := 0 } := by decide

/-- W5: the right minutes give (Heating, 300 s), wrong ones leave the session. -/
theorem test_heatOnAck_W5 :
    look (exec (.heatOnAck 5#8) (awaiting (.heatOn 5#8) [0xA1#8, 0x05#8])) (fun t => t.client.session) =
      some { mode := .heating, remaining := 300 } ∧
    look (exec (.heatOnAck 4#8) (awaiting (.heatOn 5#8) [0xA1#8, 0x04#8]))
      (fun t => (t.client.session.remaining, t.client.outcome)) = some (25, .notAcknowledged) := by decide

/-- R263, R268: VENT_ON's acknowledgement. -/
theorem test_ventOnAck :
    look (exec (.ventOnAck 1#8) (awaiting (.ventOn 1#8) [0xA2#8, 0x01#8])) (fun t => t.client.session) =
      some { mode := .venting, remaining := 60 } := by decide

/-- R264: without a TRANSACT that returned OK, or with another reply, there is no confirmation. -/
theorem test_ack_needs_reply :
    look (exec .offAck { awaiting .off [0x90#8] with done := false }) (fun t => t.client.pending) =
      some (some .off) ∧
    look (exec .offAck { awaiting .off [0x90#8] with res := resReplyTimeout }) (fun t => t.client.pending) =
      some (some .off) ∧
    look (exec .offAck (awaiting .off [0xA1#8, 0x05#8])) (fun t => t.client.outcome) =
      some .notAcknowledged := by decide

/-- W8: 25 s become 15 s. -/
theorem test_checkAck_W8 :
    look (exec .checkAck (awaiting (.check 0x21#8) [0xC4#8, 0x21#8, 0x00#8]))
      (fun t => t.client.session.remaining) = some 15 := by decide

/-- R271, W9: the flags query's data byte, and no other snapshot. -/
theorem test_queryAck_flags :
    look (exec .queryAck (awaiting .queryFlags [0xD0#8, 0x03#8, 0x5A#8]))
      (fun t => (t.client.snapshots.flags, t.client.snapshots.state)) = some (some 0x5A#8, none) := by decide

/-- W7: the hour counter. -/
theorem test_hours_W7 : hoursOf 0x00#8 0x0A#8 0x1E#8 = 21 / 2 := by
  norm_num [hoursOf, rawValue]

/-- W8: below 30 s the session's command is re-issued with one minute. -/
theorem test_renewal_W8 :
    (renewSession (awaiting .off [])).client.job =
      some { request := .heatOn 1#8, attempts := 3, stage := .wake } := by decide

/-- R269: step (2) comes after an exhausted CHECK too; 25 s stay 25 s and HeatOn(1) is re-issued. -/
theorem test_renewal_after_failed_check :
    ((fun c : Client => (c.job, c.session.mode, c.session.remaining))
      (settleJob { request := .check 0x21#8, attempts := 1, stage := .replyWait } (awaiting .off [])).client) =
      (some { request := .heatOn 1#8, attempts := 3, stage := .wake }, .heating, 25) := by decide

/-- R268: a confirmed OFF is not tried again, though two attempts are left; a failed one is. -/
theorem test_confirmed_ends_operation :
    ((fun s : State => (settleJob { request := .off, attempts := 3, stage := .replyWait } s).client.job)
      (settleReply .confirmed base)) = none ∧
    ((fun s : State => (settleJob { request := .off, attempts := 3, stage := .replyWait } s).client.job)
      (settleReply .notAcknowledged base)) = some { request := .off, attempts := 2, stage := .wake } := by
  decide

/-! ### Witnesses: every statement's hypotheses are met -/

/-- The fault and refusal that a step ends with. -/
def stops (o : Host.Outcome State Fault Refusal) : Bool :=
  match o with
  | .next _ => false
  | .fault _ | .refused _ => true

/-- The phases, results and FERR of `base` are legal. -/
theorem witness_not_reserved : reservedFault base = none := by decide

/-- ResetInputClearsBlock, StepRunsDecodedInstruction (its events, and none), ReadReturnsValueWithoutSideEffect,
EnvironmentBreachesFault. -/
theorem witness_events :
    reservedFault { base with inputs := [.rst, .write regCmd 0x05#8, .payload [0x10#8], .read regStatus, .seq,
      .rx [0x55#8], .txIdle true, .clockTo 1000, .poll, .client, .call .off, .tick true] } = none ∧
    reservedFault replying = none ∧ replying.inputs = [] ∧ replying.busy = true ∧ base.inputs = [] ∧
    base.busy = false ∧ base.client.job = none ∧ base.now.toNat ≤ 1000 ∧ (awaiting .off []).done = true ∧
    decodeCommand 0x05#8 = .ok .drain ∧ decodePayload [0x10#8] = .ok .off ∧
    ({ base with rxq := [0x55#8], inputs := [.phyRemove 1] } : State).rxq ≠ [] ∧
    999 < ({ base with inputs := [.clockTo 999] } : State).now.toNat := by decide

/-- StepRunsIssuedTableWord: a word is placed, and the step runs it. -/
theorem witness_issued_word :
    look (step (base.withFetchWord 16 0x2105)) frameBytes = some heatFrame := by decide

/-- DecodedPayloadsMatchTheirRow: a request is the whole payload, an acknowledgement is not. -/
theorem witness_decoded_payloads :
    decodePayload [0x21#8, 0x05#8] = .ok (.heatOn 0x05#8) ∧
    decodePayload [0xC4#8, 0x21#8, 0x00#8] = .ok .checkAck := by decide

/-- IllegalCommandWordRefused: each alternative, at the boundaries of the reserved OP values. -/
theorem witness_illegal_words :
    base.busy = false ∧ rsvField 0x14#8 ≠ 0#4 ∧ opField 0x00#8 = 0#4 ∧ 6 ≤ (opField 0x06#8).toNat ∧
    6 ≤ (opField 0x0F#8).toNat := by decide

/-- OutOfRangeOperandsRefused: each clause, FLEN at 258 and 511. -/
theorem witness_out_of_range :
    ({ base with plen := 255#8, explen := 255#8, flen := 258#9 } : State).busy = false ∧
    257 < (258#9).toNat ∧ 257 < (511#9).toNat := by decide

/-- WritesWhileBusyAreDropped, OperationEndsByFinishOrReset,
OperandsFrozenWhileBusy: BUSY states whose next event is not RST, and one whose next event is RST. -/
theorem witness_busy :
    replying.busy = true ∧ regPlen ≠ regCmd ∧ resetNext replying = false ∧
    look (step { replying with now := 1200#32 }) State.busy = some false ∧
    resetNext { replying with inputs := [.rst] } = true ∧
    look (step { replying with inputs := [.rst] }) State.busy = some false := by decide

/-- OperandRegisterWriteStores, BufferWriteStoresOneByte: the boundaries of both buffers. -/
theorem witness_client_buffers :
    base.busy = false ∧ isClientBuffer 0x100 = true ∧ isClientBuffer 0x1FD = true ∧
    isClientBuffer 0x200 = true ∧ isClientBuffer 0x300 = true := by decide

/-- ReadOnlyAndReservedAddresses: addresses at the boundaries of both clauses. -/
theorem witness_reserved_addresses :
    [0x001#12, 0x00A#12, 0x00F#12, 0x013#12, 0x0FF#12, 0x1FE#12, 0x301#12, 0x400#12, 0xFFF#12].all (fun a =>
      a != regCmd && !([regPlen, regExplen, regAddr, regFlenLo, regFlenHi].contains a) &&
      !(isClientBuffer a.toNat)) = true ∧
    [0x014#12, 0x0FF#12, 0x1FE#12, 0x1FF#12, 0x301#12, 0x3FF#12, 0x501#12, 0xFFF#12].all (fun a =>
      decide ((0x014 ≤ a.toNat ∧ a.toNat ≤ 0x0FF) ∨ (0x1FE ≤ a.toNat ∧ a.toNat ≤ 0x1FF) ∨
        (0x301 ≤ a.toNat ∧ a.toNat ≤ 0x3FF) ∨ 0x501 ≤ a.toNat)) = true := by decide

/-- FrameLayout, FrameRoundTrip, SingleBitFlipFailsChecksum, SameBitOfTwoBytesPassesChecksum: the longest
payload, the last byte and bit, two different bytes. -/
theorem witness_frames :
    (List.replicate 254 0x00#8 : List Byte).length ≤ 254 ∧
    256 < (frame 0x4F#8 (List.replicate 254 0x00#8)).length ∧ 7 < 8 ∧ (0 : Nat) ≠ 256 := by
  rw [frame_length, List.length_replicate]
  decide

/-- EncodeBuildsFrame, ValidateReportsChecks, DrainEmptiesReceiveQueue, TransactBuildsClientFrame,
HealthyTransactSucceeds: the largest operands that are accepted. -/
theorem witness_accepted :
    ({ base with plen := 254#8, explen := 254#8, flen := 257#9 } : State).busy = false ∧
    payloadLength { base with plen := 254#8 } ≤ 254 ∧ expectedLength { base with explen := 254#8 } ≤ 254 ∧
    ({ base with flen := 257#9 } : State).flen.toNat ≤ 257 ∧
    (List.replicate 254 0x00#8 : List Byte).length = expectedLength { base with explen := 254#8 } := by
  simp only [List.length_replicate]
  decide

/-- EnsureAwakeGate: elapsed at the hold-off, one past it, and no valid frame. -/
theorem witness_gate :
    elapsed { base with now := 31000#32 } 1000#32 ≤ base.timing.holdoffMs ∧
    base.timing.holdoffMs < elapsed { base with now := 31001#32 } 1000#32 ∧
    base.liveValid = false ∧ ({ base with liveValid := true } : State).busy = false := by decide

/-- WakePhasesStep, TransmitPhasesStep: a state in each phase, with and without a byte. -/
theorem witness_phases :
    (∀ p ∈ [phaseWakeDrain, phaseWakePulse, phaseWakeHold, phaseWakeWait, phaseTxDrain, phaseTxWrite,
      phaseTxFlush], ({ base with phase := p } : State).phase = p) ∧
    ({ base with phase := phaseWakeWait, rxq := [0x55#8] } : State).rxq = [0x55#8] ∧
    ({ base with phase := phaseWakeWait } : State).rxq = [] := by decide

/-- EchoDetectorStep: equal bytes, and a byte that differs. -/
theorem witness_echo_equal :
    (sending [0x10#8] 0x01#8 phaseEchoWait).phase = phaseEchoWait ∧
    (false = true ↔
      ({ sending [0x10#8] 0x01#8 phaseEchoWait with rxq := offFrame } : State).echo.ediff = true ∨
      ∃ j, j < 4 ∧ ({ sending [0x10#8] 0x01#8 phaseEchoWait with rxq := offFrame } : State).rxq[j]? ≠
        some (readBuffer { sending [0x10#8] 0x01#8 phaseEchoWait with rxq := offFrame }
          (fbufBase + 0 + j))) := by decide

theorem witness_echo_differs :
    (true = true ↔
      ({ sending [0x10#8] 0x01#8 phaseEchoWait with rxq := [0xF4#8, 0x03#8] } : State).echo.ediff = true ∨
      ∃ j, j < 2 ∧ ({ sending [0x10#8] 0x01#8 phaseEchoWait with rxq := [0xF4#8, 0x03#8] } : State).rxq[j]? ≠
        some (readBuffer { sending [0x10#8] 0x01#8 phaseEchoWait with rxq := [0xF4#8, 0x03#8] }
          (fbufBase + 0 + j))) := by decide

/-- PartialReplyStep, WaitsEndAtTheDeadline: one byte short. -/
theorem witness_partial :
    replying.phase = phaseReplyWait ∧ expectedLength replying ≤ 254 ∧
    replying.rcount.toNat + [0x4F#8, 0x03#8, 0xA1#8, 0x05#8].length < replyLength replying ∧
    (sending [0x10#8] 0x01#8 phaseEchoWait).ecount.toNat + [0xF4#8, 0x02#8, 0x10#8].length <
      (sending [0x10#8] 0x01#8 phaseEchoWait).flen.toNat := by decide

/-- CompleteReplyStep: exactly enough. -/
theorem witness_complete :
    replying.rcount.toNat + 5 = replyLength replying ∧
    5 ≤ [0x4F#8, 0x03#8, 0xA1#8, 0x05#8, 0xE8#8].length := by decide

/-- EveryStepKeepsInvariant, WireOutputOnlyWholeFramesAndPulses, StopsComeOnlyFromOutside: the invariant
holds in TX_WRITE, with the frame in FBUF, and the step hands it to the PHY. -/
theorem witness_invariant : Inv (sending [0x10#8] 0x01#8 phaseTxWrite) := by
  constructor <;> decide

theorem witness_wire :
    ∃ t, step (sending [0x10#8] 0x01#8 phaseTxWrite) = .next t ∧ t.phyOut = [.bytes offFrame] :=
  ⟨_, rfl, by decide⟩

/-- The invariant holds in REPLY_WAIT. -/
theorem witness_invariant_reply : Inv replying := by
  constructor <;> decide

/-- The invariant's own stops: a fault from the environment, a payload that is no row. -/
theorem witness_stops :
    stops (step { replying with inputs := [.clockTo 0] }) = true ∧
    stops (step { replying with inputs := [.payload [0x11#8]] }) = true := by decide

/-- ReceiveQueueIsFifo: bytes appended, and bytes taken. -/
theorem witness_fifo :
    look (step { replying with rxq := [0x4F#8], inputs := [.rx [0x03#8, 0xA1#8]] }) State.rxq =
      some [0x4F#8, 0x03#8, 0xA1#8] ∧
    look (step { replying with rxq := [0x4F#8], inputs := [.seq] }) State.rxq = some [] ∧
    (∃ t, step { replying with inputs := [.line 0x55#8 true] } = .next t) :=
  ⟨by decide, by decide, _, rfl⟩

/-- MarkerWrittenOnlyBySuccess, OnlyClockChangesNow: a step that writes the marker. -/
theorem witness_marker :
    ∃ t, step { replying with rxq := [0x4F#8, 0x03#8, 0xA1#8, 0x05#8, 0xE8#8] } = .next t ∧
      t.liveValid ≠ replying.liveValid :=
  ⟨_, rfl, by decide⟩

/-- ReplyWaitOnlyAfterEchoSuccess: a step that enters REPLY_WAIT. -/
theorem witness_reply_wait :
    ∃ t, step { sending [0x10#8] 0x01#8 phaseEchoWait with rxq := offFrame } = .next t ∧
      t.phase = phaseReplyWait :=
  ⟨_, rfl, by decide⟩

/-- ReservedEncodingsFault: the first reserved value of each. -/
theorem witness_reserved_encodings :
    10 ≤ (10#4).toNat ∧ 5 ≤ (5#3).toNat ∧
    ({ base with res := 5#3 } : State).phase.toNat ≤ 9 ∧
    ({ base with checks := { base.checks with ferr := 5#3 } } : State).res.toNat ≤ 4 := by decide

/-- RequestsSendTheirPayload: every request, on a block that is IDLE. -/
theorem witness_requests :
    ∀ i ∈ [Instr.off, .heatOn 0#8, .ventOn 255#8, .check 0x22#8, .queryFlags, .queryDrive, .querySensors,
      .queryCounters, .queryState],
      i.isRequest = true ∧ (replyLenOf base.params.replyLen i).toNat ≤ 254 := by decide

/-- RequestsTheBlockTurnsAway: a REPLY_LEN of 255. -/
theorem witness_requests_refused :
    replyLenOf { params.replyLen with off := 255#8 } .off = 255#8 ∧ Instr.off.isRequest = true := by decide

/-- What the statements on acknowledgements assume of the block: IDLE, DONE, OK, TRANSACT. -/
def returnedOk (s : State) : Bool := !s.busy && s.done && s.res == resOk && s.lastOp == 4#4

/-- AcknowledgedCommandSetsSession, ConfirmedCheckDecrementsSession: each awaited request and its reply. -/
theorem witness_awaited :
    ((awaiting .off [0x90#8]).client.pending = some .off ∧ returnedOk (awaiting .off [0x90#8]) = true ∧
      (replyPayload (awaiting .off [0x90#8])).take 1 = [0x90#8]) ∧
    ((awaiting (.heatOn 5#8) [0xA1#8, 5#8]).client.pending = some (.heatOn 5#8) ∧
      returnedOk (awaiting (.heatOn 5#8) [0xA1#8, 5#8]) = true ∧
      (replyPayload (awaiting (.heatOn 5#8) [0xA1#8, 5#8])).take 2 = [0xA1#8, 5#8]) ∧
    ((awaiting (.ventOn 5#8) [0xA2#8, 5#8]).client.pending = some (.ventOn 5#8) ∧
      returnedOk (awaiting (.ventOn 5#8) [0xA2#8, 5#8]) = true ∧
      (replyPayload (awaiting (.ventOn 5#8) [0xA2#8, 5#8])).take 2 = [0xA2#8, 5#8]) ∧
    ((awaiting (.check 0x21#8) [0xC4#8]).client.pending = some (.check 0x21#8) ∧
      returnedOk (awaiting (.check 0x21#8) [0xC4#8]) = true ∧
      (replyPayload (awaiting (.check 0x21#8) [0xC4#8])).take 1 = [0xC4#8] ∧
      (awaiting (.check 0x21#8) [0xC4#8]).params.checkTailTested = false) := by decide

/-- UnmatchedAcknowledgementChangesNothing: no OK reply, the minutes differ, the reply is another one, or
nothing is awaited. -/
theorem witness_unmatched :
    base.done = false ∧ Instr.offAck.isAck = true ∧
    returnedOk (awaiting (.heatOn 5#8) [0xA1#8, 4#8]) = true ∧
    (awaiting (.heatOn 5#8) [0xA1#8, 4#8]).client.pending ≠ some (.heatOn 4#8) ∧
    (replyPayload (awaiting (.heatOn 5#8) [0xA1#8, 4#8])).take 2 ≠ [0xA1#8, 5#8] ∧
    returnedOk { base with done := true, lastOp := 4#4 } = true ∧ base.client.pending = none := by decide

/-- AcknowledgedQueryStoresSnapshot: each query awaited, its acknowledgement byte and its data bytes in the
reply. -/
theorem witness_query_data :
    (∀ r ∈ [[0xD0#8, 0x03#8, 0x5A#8], [0xD0#8, 0x80#8, 0x02#8, 0x00#8]],
      returnedOk (awaiting .queryFlags r) = true ∧
      (replyPayload (awaiting .queryFlags r)).take 1 = [0xD0#8]) ∧
    (∀ q ∈ [Instr.queryFlags, .queryDrive, .querySensors, .queryCounters, .queryState],
      (awaiting q []).client.pending = some q) ∧
    replyData params.dataPos.flags 1 (awaiting .queryFlags [0xD0#8, 0x03#8, 0x5A#8]) = [0x5A#8] ∧
    replyData params.dataPos.drive 3 (awaiting .queryDrive [0xD0#8, 0x01#8, 0x02#8, 0x03#8]) =
      [0x01#8, 0x02#8, 0x03#8] ∧
    replyData params.dataPos.sensors 3 (awaiting .querySensors [0xD0#8, 0x80#8, 0x02#8, 0x00#8]) =
      [0x80#8, 0x02#8, 0x00#8] ∧
    replyData params.dataPos.counters 8
      (awaiting .queryCounters [0xD0#8, 0#8, 10#8, 30#8, 0#8, 1#8, 0#8, 1#8, 2#8]) =
      [0#8, 10#8, 30#8, 0#8, 1#8, 0#8, 1#8, 2#8] ∧
    replyData params.dataPos.state 1 (awaiting .queryState [0xD0#8, 0x04#8]) = [0x04#8] := by decide

/-- SensorInterpolation: a calibration with two raw values. -/
theorem witness_calibration : Config.temperatureCal.x1 ≠ Config.temperatureCal.x2 := by
  norm_num [Config.temperatureCal]

/-- ClientStateChangesOnlyWhenConfirmed: a confirmed acknowledgement that changes the session. -/
theorem witness_confirmed :
    ∃ t, exec .offAck (awaiting .off [0x90#8]) = .next t ∧
      t.client.session ≠ (awaiting .off [0x90#8]).client.session :=
  ⟨_, rfl, by decide⟩

/-- FailedAttemptsLeaveSession, LowSessionIsRenewed: outcomes and thresholds at their boundaries. -/
theorem witness_jobs :
    base.client.outcome ≠ .confirmed ∧ 1 < 2 ∧ 1 ≤ 1 ∧
    ({ awaiting .off [] with client := { (awaiting .off []).client with outcome := .confirmed } } :
      State).client.outcome = .confirmed ∧
    (awaiting .off []).client.session.remaining < base.pace.renewBelowS ∧
    (awaiting .off []).client.session.mode = .heating ∧ base.pace.renewBelowS ≤ 30 ∧
    base.client.session.mode = .off ∧ (sessionOf .venting 0#8).mode = .venting ∧
    (sessionOf .venting 0#8).remaining < base.pace.renewBelowS ∧
    (∀ c, Instr.off ≠ .check c) ∧ (settleReply .confirmed base).client.outcome = .confirmed ∧
    (∀ m c, Instr.heatOn m ≠ .check c) ∧ (∀ c, Instr.queryState ≠ .check c) := by
  refine ⟨?_, ?_, ?_, ?_, ?_, ?_, ?_, ?_, ?_, ?_, ?_, ?_, fun _ _ h => ?_, ?_⟩ <;> first | decide | cases h

/-- AttemptWakesSendsAndTests: a job at each stage, its last attempt and one with another left; a block error,
OK of TRANSACT, OK of another command. -/
theorem witness_attempt :
    (∀ g ∈ [Stage.wake, .wakeWait, .send, .replyWait], ∀ n ∈ [1, 2],
      (setJob (some { request := .off, attempts := n, stage := g })
        { base with done := true, res := resReplyTimeout }).client.job =
          some { request := .off, attempts := n, stage := g }) ∧
    resReplyTimeout ≠ resOk ∧ base.done = false ∧ base.busy = false ∧ replying.busy = true ∧
    (awaiting .off []).lastOp = 4#4 ∧ base.lastOp ≠ 4#4 ∧ base.res = resOk ∧ base.client.job = none := by
  decide

/-- AttemptWakesSendsAndTests: TRANSACT is done with OK, and the reply is an acknowledgement, or is none. -/
theorem witness_attempt_reply :
    (∃ i, decodePayload (replyPayload { awaiting .off [0x90#8] with done := true }) = .ok i ∧
      i.isAck = true) ∧
    returnedOk { awaiting .off [0x90#8] with done := true } = true ∧
    decodePayload (replyPayload { awaiting .off [0x10#8] with done := true }) = .ok .off ∧
    Instr.off.isAck = false :=
  ⟨⟨.offAck, by decide, by decide⟩, by decide, by decide, by decide⟩

/-- HoldsAreStuckUntilTxIdle: three steps of a hold, the clock and a stray byte among them. -/
theorem witness_hold :
    look (Host.Core.run { State := State, Fault := Fault, Refusal := Refusal, step := step,
                          reset := State.reset } 3
      { sending [0x10#8] 0x01#8 phaseTxFlush with
          txIdle := false, inputs := [.seq, .clockTo 90000, .rx [0x55#8]] }) State.phase =
      some phaseTxFlush ∧
    Event.txIdle true ∉ [Event.seq, .clockTo 90000, .rx [0x55#8]] ∧
    Event.rst ∉ [Event.seq, .clockTo 90000, .rx [0x55#8]] ∧
    ({ base with phase := phaseWakeHold, txIdle := false } : State).done = false := by decide

/-- TickRunsAtMostOneTask: no job, IDLE and BUSY; a tick that starts a task. -/
theorem witness_tick :
    base.client.job = none ∧ base.busy = false ∧ replying.client.job = none ∧
    look (clientTick false base) (fun t => t.client.job) =
      some (some { request := .queryFlags, attempts := 1, stage := .wake }) := by decide

end Sys2Proof.Tests
end

section
/-! PROOFS. Byte writes and byte reads of the register space, command acceptance, and requests the block
turns away (O1, O11 to O16, O18, O50). -/

namespace Sys2Proof.Machine

/-! ### Writes to CMD -/

theorem clientWrite_command {c : Byte} {i : Instr} (h : decodeCommand c = .ok i) (s : State) :
    clientWrite regCmd c s = exec i s := by
  simp only [clientWrite, if_true, h]

theorem clientWrite_illegal {c : Byte} {e : DecodeError} (h : decodeCommand c = .error e) (s : State) :
    clientWrite regCmd c s = .next (illegalCommand c s) := by
  simp only [clientWrite, if_true, h]

theorem clientWrite_operand {a : Addr} (h : a ≠ regCmd) (v : Byte) (s : State) :
    clientWrite a v s = .next (writeOperand a v s) := by
  simp only [clientWrite, if_neg h]

/-- No byte write faults, at any address (R61). -/
theorem clientWrite_next (a : Addr) (v : Byte) (s : State) : ∃ t, clientWrite a v s = .next t := by
  by_cases ha : a = regCmd
  · subst ha
    cases hd : decodeCommand v with
    | ok i =>
      rw [clientWrite_command hd]
      exact exec_next i s
    | error e => exact ⟨_, clientWrite_illegal hd s⟩
  · exact ⟨_, clientWrite_operand ha v s⟩

/-- Reserved bits, or an OP outside 0x1 to 0x5, are no command word (R123). -/
theorem decodeCommand_error {c : Byte}
    (h : rsvField c ≠ 0#4 ∨ opField c = 0#4 ∨ 6 ≤ (opField c).toNat) :
    ∃ e, decodeCommand c = .error e := by
  unfold decodeCommand
  split
  · rename_i hr
    have hop := h.resolve_left (absurd hr)
    have hne : ∀ op : BitVec 4, 1 ≤ op.toNat → op.toNat ≤ 5 → opField c ≠ op := fun op h1 h5 hc => by
      rw [hc] at hop
      rcases hop with rfl | h6
      · exact absurd h1 (by decide)
      · omega
    refine ⟨.reservedOp (opField c), ?_⟩
    unfold decodeOp
    repeat rw [if_neg (hne _ (by decide) (by decide))]
  · exact ⟨_, rfl⟩

/-- A command word written while BUSY sets CMD_ERR and nothing else (R45). -/
theorem exec_command_busy {i : Instr} (hi : i.isCommand = true) {s : State} (h : s.busy = true) :
    exec i s = .next { s with cmdErr := true } := by
  cases i with
  | encode => exact congrArg _ (acceptCommand_busy h)
  | validate => exact congrArg _ (acceptCommand_busy h)
  | ensureAwake => exact congrArg _ (acceptCommand_busy h)
  | transact => exact congrArg _ (acceptCommand_busy h)
  | drain => exact congrArg _ (acceptCommand_busy h)
  | _ => cases hi

theorem illegalCommand_busy (c : Byte) {s : State} (h : s.busy = true) :
    illegalCommand c s = { s with cmdErr := true } := if_pos h

theorem illegalCommand_idle (c : Byte) {s : State} (h : s.busy = false) :
    illegalCommand c s = { s with lastOp := opField c, res := resRefused, done := true, cmdErr := true } :=
  if_neg (by rw [h]; decide)

/-- Settles O13: a byte written to CMD decodes or not, and either way only CMD_ERR is set. -/
theorem writesWhileBusyAreDropped : Obligations.WritesWhileBusyAreDropped := by
  intro s v hb
  constructor
  · cases hd : decodeCommand v with
    | ok i => rw [clientWrite_command hd, exec_command_busy (decodeCommand_command hd) hb]
    | error e => rw [clientWrite_illegal hd, illegalCommand_busy v hb]
  · intro a ha
    rw [clientWrite_operand ha, writeOperand_busy a v hb]

/-- Settles O11: the byte does not decode, so the write is an illegal command's. -/
theorem illegalCommandWordRefused : Obligations.IllegalCommandWordRefused := by
  intro s c hb hc
  obtain ⟨e, he⟩ := decodeCommand_error hc
  rw [clientWrite_illegal he, illegalCommand_idle c hb]

/-- Settles O12: each operand at 255, or FLEN above 257, makes the command's legality test fail. -/
theorem outOfRangeOperandsRefused : Obligations.OutOfRangeOperandsRefused := by
  intro s hb
  have h255 : ∀ v : Byte, v = 255#8 → ¬v.toNat ≤ 254 := fun v hv => by rw [hv]; decide
  refine ⟨fun hp => ?_, fun hx => ?_, fun hx => ?_⟩
  · have hl : encodeLegal s = false := by
      rw [← Bool.not_eq_true, encodeLegal_iff]
      exact h255 _ hp
    exact congrArg _ (acceptCommand_refused hb hl)
  · have hl : validateLegal s = false := by
      rw [← Bool.not_eq_true, validateLegal_iff]
      rintro ⟨he, hf⟩
      exact hx.elim (fun hx => h255 _ hx he) (fun hx => by omega)
    exact congrArg _ (acceptCommand_refused hb hl)
  · have hl : transactLegal s = false := by
      rw [← Bool.not_eq_true, transactLegal_iff]
      rintro ⟨hp, he⟩
      exact hx.elim (fun hx => h255 _ hx hp) (fun hx => h255 _ hx he)
    exact congrArg _ (acceptCommand_refused hb hl)

/-! ### Counts and their bytes -/

theorem countLow_toNat (c : Count) : (countLow c).toNat = c.toNat % 256 := by
  simp [countLow]

theorem countHigh_toNat (c : Count) : (countHigh c).toNat = c.toNat / 256 := by
  have hc := c.isLt
  rw [countHigh, append_toNat (0#7), BitVec.extractLsb'_toNat, Nat.shiftRight_eq_div_pow, BitVec.toNat_ofNat]
  omega

theorem countOf_toNat (high low : Byte) : (countOf high low).toNat = high.toNat % 2 * 256 + low.toNat := by
  rw [countOf, append_toNat (high.extractLsb' 0 1), BitVec.extractLsb'_toNat, Nat.shiftRight_zero, pow_one,
    show 2 ^ 8 = 256 from rfl]

theorem count_bytes (c : Count) : (countLow c).toNat + 256 * (countHigh c).toNat = c.toNat := by
  rw [countLow_toNat, countHigh_toNat]
  exact Nat.mod_add_div _ _

theorem timeByte_toNat (t : Time) (k : Nat) : (timeByte t k).toNat = t.toNat / 256 ^ k % 256 := by
  simp [timeByte, Nat.shiftRight_eq_div_pow, pow_mul]

/-! ### Operand registers and buffers -/

theorem writeOperand_idle (a : Addr) (v : Byte) {s : State} (h : s.busy = false) :
    writeOperand a v s = storeOperand a v s := if_neg (by rw [h]; decide)

/-- Settles O14: the stored count is put together of the byte written and the half that stays. -/
theorem operandRegisterWriteStores : Obligations.OperandRegisterWriteStores := by
  intro s v hb
  have hw : ∀ a : Addr, a ≠ regCmd → clientWrite a v s = .next (storeOperand a v s) := fun a ha => by
    rw [clientWrite_operand ha, writeOperand_idle a v hb]
  refine ⟨hw _ (by decide), hw _ (by decide), hw _ (by decide), ?_, ?_⟩
  · have hc : countOf (countHigh s.flen) v = BitVec.ofNat 9 (s.flen.toNat / 256 * 256 + v.toNat) := by
      apply BitVec.eq_of_toNat_eq
      rw [countOf_toNat, countHigh_toNat, BitVec.toNat_ofNat]
      omega
    rw [hw _ (by decide), ← hc]
    rfl
  · have hc : countOf v (countLow s.flen) = BitVec.ofNat 9 (v.toNat % 2 * 256 + s.flen.toNat % 256) := by
      apply BitVec.eq_of_toNat_eq
      rw [countOf_toNat, countLow_toNat, BitVec.toNat_ofNat]
      omega
    rw [hw _ (by decide), ← hc]
    rfl

/-- Of the buffers' memory a register read sees the byte at its own address only. -/
theorem readRegister_mem {s : State} {m : Memory} {a : Addr}
    (h : readBuffer { s with mem := m } a.toNat = readBuffer s a.toNat) :
    readRegister { s with mem := m } a = readRegister s a := by
  unfold readRegister
  rw [h]
  rfl

/-- Settles O15: the write is one buffer write, and no other address reads that byte. -/
theorem bufferWriteStoresOneByte : Obligations.BufferWriteStoresOneByte := by
  intro s a v hb ha
  have hbuf := isBuffer_of_client ha
  refine ⟨writeBuffer s a.toNat v, ?_, writeBuffer_eq s a.toNat v, ?_, fun b hne => ?_⟩
  · rw [clientWrite_operand (ne_register hbuf (by decide)), writeOperand_buffer a v hb ha]
  · rw [readRegister_buffer _ a hbuf, readBuffer_writeBuffer_same s _ v hbuf]
  · have hread := readBuffer_writeBuffer_other s a.toNat b.toNat v (fun hc => hne (BitVec.eq_of_toNat_eq hc))
    rw [writeBuffer_eq] at hread ⊢
    exact readRegister_mem hread

/-! ### Reserved and read-only addresses -/

/-- A write to any address but CMD, the operand registers and the client's buffers is ignored (R61). -/
theorem writeOperand_ignored {a : Addr} (ho : a ∉ [regPlen, regExplen, regAddr, regFlenLo, regFlenHi])
    (hc : isClientBuffer a.toNat = false) (v : Byte) (s : State) : writeOperand a v s = s := by
  simp only [List.mem_cons, List.not_mem_nil, or_false, not_or] at ho
  obtain ⟨h1, h2, h3, h4, h5⟩ := ho
  cases hb : s.busy
  · rw [writeOperand_idle a v hb]
    simp only [storeOperand, if_neg h1, if_neg h2, if_neg h3, if_neg h4, if_neg h5, hc, Bool.false_eq_true,
      if_false]
  · exact writeOperand_busy a v hb

/-- An address that is neither a register nor a buffer byte reads 0x00 (R48, R61). -/
theorem readRegister_reserved (s : State) {a : Addr} (hr : a.toNat = 0 ∨ a.toNat = 0xF ∨ 0x14 ≤ a.toNat)
    (hb : isBuffer a.toNat = false) : readRegister s a = 0x00#8 := by
  have hne : ∀ r : Addr, 1 ≤ r.toNat ∧ r.toNat ≤ 0x13 ∧ r.toNat ≠ 0xF → a ≠ r := fun r hn hc => by
    rw [hc] at hr
    omega
  unfold readRegister
  repeat rw [if_neg (hne _ (by decide))]
  exact if_neg (by rw [hb]; decide)

/-- Settles O16: the addresses named are neither registers nor buffer bytes. -/
theorem readOnlyAndReservedAddresses : Obligations.ReadOnlyAndReservedAddresses := by
  refine ⟨fun s a v ha ho hc => ?_, fun s a ha => ?_, fun s a v => ⟨clientWrite_next a v s, _, rfl⟩⟩
  · rw [clientWrite_operand ha, writeOperand_ignored ho hc]
  · have hn : a.toNat = 0 ∨ a.toNat = 0xF ∨ (0x014 ≤ a.toNat ∧ a.toNat ≤ 0x0FF) ∨
        (0x1FE ≤ a.toNat ∧ a.toNat ≤ 0x1FF) ∨ (0x301 ≤ a.toNat ∧ a.toNat ≤ 0x3FF) ∨ 0x501 ≤ a.toNat :=
      ha.imp (congrArg BitVec.toNat) (Or.imp_left (congrArg BitVec.toNat))
    refine readRegister_reserved s (by omega) ?_
    rw [← Bool.not_eq_true, isBuffer_iff]
    omega

/-! ### The bits of the registers -/

theorem statusByte_toNat (s : State) : (statusByte s).toNat = s.busy.toNat + 2 * s.done.toNat +
    4 * s.cmdErr.toNat + 8 * s.woke.toNat + 16 * s.liveValid.toNat := by
  show BitVec.toNat (w := 3 + 1 + 1 + 1 + 1 + 1) _ = _
  simp only [statusByte, append_toNat, BitVec.toNat_ofBool, BitVec.toNat_ofNat]
  omega

theorem resultByte_toNat (s : State) : (resultByte s).toNat = 16 * s.lastOp.toNat + s.res.toNat := by
  show BitVec.toNat (w := 4 + 1 + 3) _ = _
  simp only [resultByte, append_toNat, BitVec.toNat_ofNat]
  omega

theorem checksByte_toNat (c : Checks) : (checksByte c).toNat = c.countOk.toNat + 2 * c.addrOk.toNat +
    4 * c.lenOk.toNat + 8 * c.csumOk.toNat + 16 * c.ferr.toNat := by
  show BitVec.toNat (w := 1 + 3 + 1 + 1 + 1 + 1) _ = _
  simp only [checksByte, append_toNat, BitVec.toNat_ofBool, BitVec.toNat_ofNat]
  omega

theorem echoByte_toNat (e : Echo) : (echoByte e).toNat = e.eshort.toNat + 2 * e.ediff.toNat := by
  show BitVec.toNat (w := 6 + 1 + 1) _ = _
  simp only [echoByte, append_toNat, BitVec.toNat_ofBool, BitVec.toNat_ofNat]
  omega

theorem phaseByte_toNat (s : State) : (phaseByte s).toNat = s.phase.toNat := by
  show BitVec.toNat (w := 4 + 4) _ = _
  simp only [phaseByte, append_toNat, BitVec.toNat_ofNat]
  omega

/-- The four bytes of LIVE_TS put together are its value (R60, R83). -/
theorem time_bytes (t : Time) : (timeByte t 0).toNat + 256 * (timeByte t 1).toNat +
    65536 * (timeByte t 2).toNat + 16777216 * (timeByte t 3).toNat = t.toNat := by
  have ht := t.isLt
  simp only [timeByte_toNat]
  omega

/-- Settles O18: each register is the sum of its fields, and a buffer address reads its byte. -/
theorem registerBitLayout : Obligations.RegisterBitLayout := fun s =>
  ⟨statusByte_toNat s, resultByte_toNat s, checksByte_toNat s.checks, echoByte_toNat s.echo, phaseByte_toNat s,
    count_bytes s.flen, count_bytes s.rcount, count_bytes s.ecount, time_bytes s.liveTs, rfl, rfl, rfl,
    fun a ha => readRegister_buffer s a ((isBuffer_iff _).2 (by omega))⟩

/-! ### Reset -/

/-- Settles O1: `State.reset` holds R62's values field by field. -/
theorem resetLeavesSpecValues : Obligations.ResetLeavesSpecValues :=
  ⟨rfl, rfl, rfl, rfl, rfl, rfl, rfl, rfl, rfl, rfl, rfl, rfl, rfl, rfl, rfl, rfl, rfl⟩

/-! ### Requests the block turns away -/

theorem encode_length_le (i : Instr) : (encode i).length ≤ 3 := by
  cases i <;> simp [encode]

/-- TRANSACT with EXPLEN at 255 is refused (R43). -/
theorem writeTransact_refused {s : State} (hb : s.busy = false) (he : s.explen = 255#8) :
    writeTransact s = { s with lastOp := 4#4, res := resRefused, done := true, cmdErr := true } := by
  have hl : transactLegal s = false := by
    rw [← Bool.not_eq_true, transactLegal_iff, expectedLength, he]
    exact fun hx => absurd hx.2 (by decide)
  exact acceptCommand_refused hb hl

/-- Settles O50: while BUSY every write of the request is dropped; with EXPLEN at 255 its writes are those of any
request and its TRANSACT is refused. -/
theorem requestsTheBlockTurnsAway : Obligations.RequestsTheBlockTurnsAway := by
  intro s i hi
  rw [exec_request hi]
  refine ⟨fun hb => ?_, fun hb he => ⟨_, rfl, ?_⟩⟩
  · rw [sendRequest, request_busy _ _ hb]
    rfl
  · have hle := encode_length_le i
    obtain ⟨heq, hpay, hlen, hout⟩ := writeRequest_spec (encode i) 255#8 hb (by omega)
    rw [sendRequest, he]
    generalize writeRequest (encode i) 255#8 s = u at heq hpay hlen hout ⊢
    rw [writeTransact_refused (by rw [heq]; exact hb) (by rw [heq])]
    refine ⟨?_, hlen, ?_, fun a ha => ?_⟩
    · rw [← hpay]
      exact payload_congr rfl rfl rfl
    · rw [heq]
      rfl
    · exact (readBuffer_congr rfl rfl a).trans (hout a ha)

end Sys2Proof.Machine
end

section
/-! PROOFS. What an event does, and what every step of the machine keeps: the marker, the end of an
operation, the receive queue, the clock and the parameters (O9, O10, O17, O38, O39, O44, O45). -/

namespace Sys2Proof.Machine

/-! ### One event -/

/-- With no reserved encoding the next event happens. -/
theorem step_event {s : State} {e : Event} {rest : List Event} (hr : reservedFault s = none)
    (hs : s.inputs = e :: rest) : step s = runEvent e { s with inputs := rest } := by
  simp only [step, hr, hs]

/-- With no reserved encoding and no event, SEQ or the client goes on (log 4). -/
theorem step_no_event {s : State} (hr : reservedFault s = none) (hs : s.inputs = []) :
    step s = idleMove s := by
  simp only [step, hr, hs]

/-- The event that issues an instruction's bytes runs the instruction (log 26). -/
theorem runEvent_issueEvent (i : Instr) (s : State) : runEvent (issueEvent (encode i)) s = exec i s := by
  cases i <;> rfl

/-- Settles O9: each clause is the meaning of one event. -/
theorem stepRunsDecodedInstruction : Obligations.StepRunsDecodedInstruction := by
  refine ⟨fun s rest hr => ⟨fun c i hs hd => ?_, fun bs i hs hd => ?_, fun a v => step_event hr, step_event hr,
    fun bs => step_event hr, fun b => step_event hr, fun ms hs hle => ?_, fun hs hd => ?_, step_event hr,
    fun c => step_event hr, fun d => step_event hr, fun hs hb => ?_, fun hs hb => ?_⟩,
    fun s => ⟨fun hb => seqStep_idle (busy_eq_false.1 hb), fun hj => ?_⟩⟩
  · rw [step_event hr hs]
    exact clientWrite_command hd _
  · rw [step_event hr hs]
    simp only [runEvent, clientPayload, hd]
  · rw [step_event hr hs]
    exact if_neg (Nat.not_lt.2 hle)
  · rw [step_event hr hs]
    exact congrArg _ (if_pos hd)
  · rw [step_no_event hr hs]
    exact if_pos hb
  · rw [step_no_event hr hs]
    exact if_neg (by rw [hb]; decide)
  · simp only [clientMove, hj]

/-- Settles O10: the word's bytes are the instruction's, and their event runs it. -/
theorem stepRunsIssuedTableWord : Obligations.StepRunsIssuedTableWord := by
  intro s i hr
  unfold State.withFetchWord
  rw [tableBytes_tableWord]
  exact (step_event (s := { s with inputs := issueEvent (encode i) :: s.inputs }) hr rfl).trans
    (runEvent_issueEvent i s)

/-- Settles O17: the event is the client's read. -/
theorem readReturnsValueWithoutSideEffect : Obligations.ReadReturnsValueWithoutSideEffect :=
  fun _ _ _ hr hs => step_event hr hs

/-! ### What a SEQ step does to the operation, to the marker and to `rxq` -/

/-- How a SEQ step leaves the operation and the marker. -/
inductive SeqEffect (s t : State) : Prop
  /-- BUSY is as it was. -/
  | goesOn (hb : t.busy = s.busy) (hts : t.liveTs = s.liveTs) (hv : t.liveValid = s.liveValid)
  /-- The operation ends by `finish`, and the marker is not written. -/
  | ends (hd : t.done = true) (hts : t.liveTs = s.liveTs) (hv : t.liveValid = s.liveValid)
  /-- A TRANSACT succeeds (R230). -/
  | succeeds (hw : s.phase = phaseReplyWait) (hp : t.phase = phaseIdle) (hd : t.done = true)
      (hr : t.res = resOk) (hc : t.checks.ok = true) (hts : t.liveTs = s.now) (hv : t.liveValid = true)

/-- The effect is told of phase, clock and marker, whatever bytes were taken before. -/
theorem SeqEffect.of_same {s u t : State} (h : SeqEffect u t) (hp : u.phase = s.phase) (hn : u.now = s.now)
    (hts : u.liveTs = s.liveTs) (hv : u.liveValid = s.liveValid) : SeqEffect s t := by
  have hb : u.busy = s.busy := by rw [State.busy, State.busy, hp]
  cases h with
  | goesOn h1 h2 h3 => exact .goesOn (h1.trans hb) (h2.trans hts) (h3.trans hv)
  | ends h1 h2 h3 => exact .ends h1 (h2.trans hts) (h3.trans hv)
  | succeeds hw h1 h2 h3 h4 h5 h6 => exact .succeeds (hp.symm.trans hw) h1 h2 h3 h4 (h5.trans hn) h6

theorem echoVerdict_effect (s : State) (h : s.busy = true) :
    (echoVerdict s).rxq = s.rxq ∧ SeqEffect s (echoVerdict s) := by
  unfold echoVerdict
  split
  · split
    · exact ⟨rfl, .ends rfl rfl rfl⟩
    · exact ⟨rfl, .goesOn h.symm rfl rfl⟩
  · split
    · exact ⟨rfl, .ends rfl rfl rfl⟩
    · exact ⟨rfl, .goesOn rfl rfl rfl⟩

theorem replyVerdict_effect (s : State) (h : s.phase = phaseReplyWait) :
    (replyVerdict s).rxq = s.rxq ∧ SeqEffect s (replyVerdict s) := by
  unfold replyVerdict
  split
  · unfold replyValidate
    split
    · exact ⟨rfl, .succeeds h rfl rfl rfl ‹_› rfl rfl⟩
    · exact ⟨rfl, .ends rfl rfl rfl⟩
  · split
    · exact ⟨rfl, .ends rfl rfl rfl⟩
    · exact ⟨rfl, .goesOn rfl rfl rfl⟩

/-- Everything a SEQ step does to `rxq`, whose oldest bytes it takes, to the operation and to the marker. -/
theorem seqStep_effect (s : State) :
    (∃ k, (seqStep s).rxq = s.rxq.drop k) ∧ SeqEffect s (seqStep s) := by
  have hbusy : ∀ p, s.phase = p → p ≠ phaseIdle → true = s.busy := fun p hp hne =>
    (busy_eq_true.2 (hp ▸ hne)).symm
  have hall : ∀ q : List Byte, [] = q.drop q.length := fun q => List.drop_length.symm
  have same : (∃ k, s.rxq = s.rxq.drop k) ∧ SeqEffect s s := ⟨⟨0, rfl⟩, .goesOn rfl rfl rfl⟩
  rcases phase_cases s.phase with hp | hp | hp | hp | hp | hp | hp | hp | hp | hp | hp
  · rw [seqStep_idle hp]; exact same
  · rw [seqStep_wakeDrain hp]
    exact ⟨⟨_, hall _⟩, .goesOn (hbusy _ hp (by decide)) rfl rfl⟩
  · rw [seqStep_wakePulse hp]
    exact ⟨⟨0, rfl⟩, .goesOn (hbusy _ hp (by decide)) rfl rfl⟩
  · rw [seqStep_wakeHold hp, wakeHoldStep]
    split
    · exact ⟨⟨0, rfl⟩, .goesOn (hbusy _ hp (by decide)) rfl rfl⟩
    · exact same
  · rw [seqStep_wakeWait hp, wakeWaitStep]
    split
    · exact ⟨⟨1, rfl⟩, .ends rfl rfl rfl⟩
    · split
      · exact ⟨⟨0, rfl⟩, .ends rfl rfl rfl⟩
      · exact same
  · rw [seqStep_txDrain hp]
    exact ⟨⟨_, hall _⟩, .goesOn (hbusy _ hp (by decide)) rfl rfl⟩
  · rw [seqStep_txWrite hp]
    exact ⟨⟨0, rfl⟩, .goesOn (hbusy _ hp (by decide)) rfl rfl⟩
  · rw [seqStep_txFlush hp, txFlushStep]
    split
    · exact ⟨⟨0, rfl⟩, .goesOn (hbusy _ hp (by decide)) rfl rfl⟩
    · exact same
  · rw [seqStep_echoWait hp, echoWaitStep]
    obtain ⟨hq, he⟩ := echoVerdict_effect (echoConsume s) (hbusy _ hp (by decide)).symm
    exact ⟨⟨echoTake s, hq⟩, he.of_same rfl rfl rfl rfl⟩
  · rw [seqStep_replyWait hp, replyWaitStep]
    have hc := replyConsume_eq s
    obtain ⟨hq, he⟩ := replyVerdict_effect (replyConsume s) (by rw [hc]; exact hp)
    exact ⟨⟨replyTake s, by rw [hq, hc]⟩, he.of_same (by rw [hc]) (by rw [hc]) (by rw [hc]) (by rw [hc])⟩
  · rw [seqStep_reserved hp]; exact same

/-! ### Every step -/

/-- What a client's access, a read, the PHY and the client's own moves leave alone: the clock, the
parameters and the marker. -/
structure Keeps (b t : State) : Prop where
  now : t.now = b.now
  timing : t.timing = b.timing
  pace : t.pace = b.pace
  params : t.params = b.params
  liveTs : t.liveTs = b.liveTs
  liveValid : t.liveValid = b.liveValid

/-- What one step does to the clock, the parameters, the marker and `rxq`: `step_cases` with every access
told as one case. `s` is the state before the step, `b` the same state with its event taken, `t` the state
after it. -/
inductive StepFrame (s b t : State) : Prop
  /-- One SEQ step. -/
  | seq (h : t = { seqStep b with inputs := t.inputs })
  /-- RST. -/
  | reset (hin : resetNext s = true) (h : t = assertReset b)
  /-- CLOCK sets `now`. -/
  | clock (ms : Nat) (hin : s.inputs.head? = some (.clockTo ms)) (hms : s.now.toNat ≤ ms)
      (h : t = { b with now := BitVec.ofNat 32 ms })
  /-- The PHY appends to `rxq`. -/
  | receives (h : Keeps b t)
      (hin : (∃ l, s.inputs.head? = some (.rx l)) ∨ ∃ v err, s.inputs.head? = some (.line v err))
  /-- Anything else takes at most bytes of `rxq`. -/
  | other (h : Keeps b t) (hq : ∃ k, t.rxq = b.rxq.drop k)

/-- A queue that is as it was, or empty, has lost some of its oldest bytes. -/
theorem drop_of_eq_or_nil {q r : List Byte} (h : r = q ∨ r = []) : ∃ k, r = q.drop k := by
  rcases h with rfl | rfl
  · exact ⟨0, rfl⟩
  · exact ⟨q.length, List.drop_length.symm⟩

theorem illegalCommand_frame (c : Byte) (s : State) : illegalCommand c s = { s with
    lastOp := (illegalCommand c s).lastOp, res := (illegalCommand c s).res,
    done := (illegalCommand c s).done, cmdErr := (illegalCommand c s).cmdErr } := by
  unfold illegalCommand
  split <;> rfl

theorem StepKind.frame {s b t : State} (k : StepKind s b t) : StepFrame s b t := by
  cases k with
  | quiet h hq =>
    have hk : Keeps b t := by rw [h]; exact ⟨rfl, rfl, rfl, rfl, rfl, rfl⟩
    rcases hq with hq | ⟨l, hin, -⟩ | ⟨v, err, l, hin, -⟩
    · exact .other hk ⟨0, hq⟩
    · exact .receives hk (.inl ⟨l, hin⟩)
    · exact .receives hk (.inr ⟨v, err, hin⟩)
  | clock ms hin hms h => exact .clock ms hin hms h
  | seq h => exact .seq h
  | reset hin h => exact .reset hin h
  | command i _ h =>
    obtain ⟨v, hv, hq⟩ := commandWrite_frame i b
    rw [h, hv]
    exact .other ⟨rfl, rfl, rfl, rfl, rfl, rfl⟩ (drop_of_eq_or_nil hq)
  | illegal c h =>
    rw [h, illegalCommand_frame]
    exact .other ⟨rfl, rfl, rfl, rfl, rfl, rfl⟩ ⟨0, rfl⟩
  | operand a v h =>
    obtain ⟨w, hw⟩ := writeOperand_frame a v b
    rw [h, hw]
    exact .other ⟨rfl, rfl, rfl, rfl, rfl, rfl⟩ ⟨0, rfl⟩
  | request i _ e h =>
    obtain ⟨v, hv, hq⟩ := request_frame (encode i) e b
    rw [h, hv]
    exact .other ⟨rfl, rfl, rfl, rfl, rfl, rfl⟩ (drop_of_eq_or_nil hq)

/-- What one step does to the clock, the parameters, the marker and `rxq`. -/
theorem step_frame {s t : State} (h : step s = .next t) :
    ∃ b, b = { s with inputs := b.inputs, reads := b.reads } ∧ StepFrame s b t := by
  obtain ⟨-, b, hb, k⟩ := step_cases h
  exact ⟨b, hb, k.frame⟩

/-- Settles O38: of all kinds of step but RST only SEQ's writes the marker, and there only a success. -/
theorem markerWrittenOnlyBySuccess : Obligations.MarkerWrittenOnlyBySuccess := by
  intro s t hs hr hne
  obtain ⟨b, hb, k⟩ := step_frame hs
  have changes : ¬(t.liveTs = b.liveTs ∧ t.liveValid = b.liveValid) := fun hc => by
    rw [hb] at hc
    exact hne.elim (absurd hc.1) (absurd hc.2)
  cases k with
  | seq ht =>
    rw [ht] at changes ⊢
    cases (seqStep_effect b).2 with
    | goesOn _ hts hv => exact absurd ⟨hts, hv⟩ changes
    | ends _ hts hv => exact absurd ⟨hts, hv⟩ changes
    | succeeds hw hp hd hres hc hts hv =>
      have hphase : b.phase = s.phase := by rw [hb]
      have hnow : b.now = s.now := by rw [hb]
      exact ⟨hphase.symm.trans hw, hp, hd, hres, hc, hts.trans hnow, hv⟩
  | reset hin _ => exact absurd hin (by rw [hr]; decide)
  | clock ms _ _ ht => exact absurd ⟨by rw [ht], by rw [ht]⟩ changes
  | receives hk _ => exact absurd ⟨hk.liveTs, hk.liveValid⟩ changes
  | other hk _ => exact absurd ⟨hk.liveTs, hk.liveValid⟩ changes

/-- Settles O39: while BUSY only RST and SEQ write the phase (`step_busy`), and a SEQ step that leaves the
operation has set DONE. -/
theorem operationEndsByFinishOrReset : Obligations.OperationEndsByFinishOrReset := by
  intro s t hs hb ht
  rcases step_busy hs hb with ⟨hr, rest, he⟩ | ⟨hr, b, hbs, he⟩ | ⟨hr, he⟩
  · exact .inl ⟨hr, by rw [he]; rfl⟩
  · have hbb : b.busy = true := by rw [hbs]; exact hb
    rw [he] at ht ⊢
    refine .inr ⟨hr, ?_⟩
    cases (seqStep_effect b).2 with
    | goesOn hsame => cases ht.symm.trans (hsame.trans hbb)
    | ends hd => exact hd
    | succeeds _ _ hd => exact hd
  · rw [he] at ht
    cases ht.symm.trans hb

/-- Settles O44: `rx` and `line` are their events' meaning; no other step appends (`step_frame`). -/
theorem receiveQueueIsFifo : Obligations.ReceiveQueueIsFifo := by
  intro s t hs
  have event : ∀ e, s.inputs.head? = some e →
      ∃ rest, runEvent e { s with inputs := rest } = .next t := fun e he => by
    obtain ⟨rest, hi⟩ := List.head?_eq_some_iff.1 he
    exact ⟨rest, (step_event (step_cases hs).1 hi).symm.trans hs⟩
  refine ⟨fun bs he => ?_, fun v err he => ?_, fun hrx hline => ?_⟩
  · obtain ⟨rest, hrun⟩ := event _ he
    cases hrun
    rfl
  · obtain ⟨rest, hrun⟩ := event _ he
    obtain ⟨bs, hl, hq⟩ := phyReceive_eq v err { s with inputs := rest }
    cases hrun
    exact ⟨bs, hl, by rw [hq]⟩
  · obtain ⟨b, hb, k⟩ := step_frame hs
    have hsame : b.rxq = s.rxq := by rw [hb]
    rw [← hsame]
    cases k with
    | seq ht =>
      rw [ht]
      exact (seqStep_effect b).1
    | reset _ ht => exact ⟨0, by rw [ht]; rfl⟩
    | clock ms _ _ ht => exact ⟨0, by rw [ht]; rfl⟩
    | receives _ hin =>
      rcases hin with ⟨l, hin⟩ | ⟨v, err, hin⟩
      · exact absurd hin (hrx l)
      · exact absurd hin (hline v err)
    | other _ hq => exact hq

/-- Settles O45: of the kinds of step (`step_frame`) only CLOCK's writes `now`, and none a parameter. -/
theorem onlyClockChangesNow : Obligations.OnlyClockChangesNow := by
  intro s t hs
  obtain ⟨b, hb, k⟩ := step_frame hs
  have of_keeps : Keeps b t → t.now = s.now ∧ t.timing = s.timing ∧ t.pace = s.pace ∧ t.params = s.params :=
    fun hk => by
      rw [hk.now, hk.timing, hk.pace, hk.params, hb]
      exact ⟨rfl, rfl, rfl, rfl⟩
  cases k with
  | seq ht =>
    rw [ht, seqStep_eq, hb]
    exact ⟨.inl rfl, rfl, rfl, rfl⟩
  | reset _ ht =>
    rw [ht, hb]
    exact ⟨.inl rfl, rfl, rfl, rfl⟩
  | clock ms hin hms ht =>
    rw [ht, hb]
    exact ⟨.inr ⟨ms, hin, hms, rfl⟩, rfl, rfl, rfl⟩
  | receives hk _ => exact (of_keeps hk).imp_left .inl
  | other hk _ => exact (of_keeps hk).imp_left .inl

end Sys2Proof.Machine
end

section
/-! PROOFS. The invariant: what it does not read, what each operation owes it, and that reset
establishes it and every step keeps it (O2, O37). -/

namespace Sys2Proof.Machine

/-- A session that is off has no time left (R268): the invariant's clause on the client. -/
abbrev NoTimeWhenOff (c : Client) : Prop := c.session.mode = .off → c.session.remaining = 0

/-! ### What the invariant reads -/

/-- The invariant reads neither CMD_ERR, the wire, the clock nor the model's own lists, and of the client
the session only. -/
theorem Inv.of_quiet {s : State} (h : Inv s) {err : Bool} {q : List Byte} {idle : Bool} {now : Time} {c : Client}
    {draws : Nat} {es : List Event} {rs : List (Addr × Byte)} (hc : NoTimeWhenOff c) :
    Inv { s with cmdErr := err, rxq := q, txIdle := idle, now := now, client := c, rxDraws := draws,
                 inputs := es, reads := rs } :=
  { h with
    tx_frame := fun hp => ⟨(h.tx_frame hp).1, sentFrame_congr (s := s) rfl rfl rfl rfl (h.tx_frame hp).2⟩
    session_off := hc }

/-- While IDLE the invariant asks only for legal codes, canonical memory, and its clauses on the marker and
the session. -/
theorem Inv.of_idle {s : State} (hp : s.phase = phaseIdle) (hr : s.res.toNat ≤ 4)
    (hf : s.checks.ferr.toNat ≤ 4) (hm : s.mem.wf) (hl : s.liveValid = false → s.liveTs = 0#32)
    (hc : NoTimeWhenOff s.client) : Inv s := by
  have hb : s.busy ≠ true := by simp [busy_eq_false.2 hp]
  have h0 : s.phase.toNat = 0 := by rw [hp]; rfl
  exact {
    phase_legal := by omega
    res_legal := hr
    ferr_legal := hf
    mem_wf := hm
    busy_not_done := fun h => absurd h hb
    marker_clear := hl
    waking_woke := fun h => by omega
    tx_operands := fun h => by omega
    tx_frame := fun h => by omega
    busy_checks := fun h => absurd h hb
    before_echo := fun h => absurd h hb
    in_echo := fun h => by rw [hp] at h; cases h
    in_reply := fun h => by rw [hp] at h; cases h
    before_reply := fun h => absurd h hb
    session_off := hc }

/-- A move between phases up to ECHO_WAIT, within the wake or within the TRANSACT, keeps the invariant. -/
theorem Inv.next_phase {s : State} (h : Inv s) {p : BitVec 4} {t0 : Time} {q : List Byte} {idle : Bool}
    {out : List PhyCall} (hs : 1 ≤ s.phase.toNat ∧ s.phase.toNat ≤ 7) (hp : 1 ≤ p.toNat ∧ p.toNat ≤ 8)
    (hw : p.toNat ≤ 4 ↔ s.phase.toNat ≤ 4) :
    Inv { s with phase := p, t0 := t0, rxq := q, txIdle := idle, phyOut := out } := by
  have hb : s.busy = true := busy_eq_true.2 (fun hc => by rw [hc] at hs; exact absurd hs.1 (by decide))
  have hr : s.phase ≠ phaseReplyWait := fun hc => by rw [hc] at hs; exact absurd hs.2 (by decide)
  have htx : 5 ≤ p.toNat → transacting s := fun hx => by show 5 ≤ s.phase.toNat; omega
  obtain ⟨hec, he⟩ := h.before_echo hb hs.2
  exact { h with
    phase_legal := by show p.toNat ≤ 9; omega
    busy_not_done := fun _ => h.busy_not_done hb
    waking_woke := fun hk => h.waking_woke ⟨hs.1, hw.1 hk.2⟩
    tx_operands := fun hx => h.tx_operands (htx hx)
    tx_frame := fun hx =>
      ⟨(h.tx_frame (htx hx)).1, sentFrame_congr (s := s) rfl rfl rfl rfl (h.tx_frame (htx hx)).2⟩
    busy_checks := fun _ => h.busy_checks hb
    before_echo := fun _ _ => ⟨hec, he⟩
    in_echo := fun hx => by
      have h5 : 5 ≤ p.toNat := by rw [show p = phaseEchoWait from hx]; decide
      have hlen := (h.tx_frame (htx h5)).1
      rw [hec, he]
      exact ⟨by simp only [BitVec.toNat_ofNat]; omega, rfl⟩
    in_reply := fun hx => by
      rw [show p = phaseReplyWait from hx] at hp
      exact absurd hp.2 (by decide)
    before_reply := fun _ _ => h.before_reply hb hr }

/-- The wait on the echo or on the reply goes on, or the one follows the other: the phase entered owes the
invariant its counts, and the bytes taken leave FBUF and the payload alone. -/
theorem Inv.next_wait {s : State} (h : Inv s) {p : BitVec 4} {t0 : Time} {q : List Byte} {e : Echo}
    {ec rc : Count} {m : Memory} (hs : 8 ≤ s.phase.toNat)
    (hp : (p = phaseEchoWait ∧ (ec.toNat < s.flen.toNat ∧ e.eshort = false) ∧ rc = 0#9) ∨
      (p = phaseReplyWait ∧ ec = s.flen ∧ e = Echo.clear ∧ rc.toNat < replyLength s))
    (hm : m.wf ∧ frameBytes { s with mem := m } = frameBytes s ∧ payload { s with mem := m } = payload s) :
    Inv { s with phase := p, t0 := t0, rxq := q, echo := e, ecount := ec, rcount := rc, mem := m } := by
  have hb : s.busy = true := busy_eq_true.2 (fun hc => by rw [hc] at hs; exact absurd hs (by decide))
  have htx : transacting s := by show 5 ≤ s.phase.toNat; omega
  have hp8 : 8 ≤ p.toNat ∧ p.toNat ≤ 9 := by rcases hp with ⟨rfl, -⟩ | ⟨rfl, -⟩ <;> decide
  obtain ⟨hlen, hsent⟩ := h.tx_frame htx
  obtain ⟨hwf, hframe, hpay⟩ := hm
  exact { h with
    phase_legal := hp8.2
    mem_wf := hwf
    busy_not_done := fun _ => h.busy_not_done hb
    waking_woke := fun hk => absurd (hp8.1.trans hk.2) (by decide)
    tx_operands := fun _ => h.tx_operands htx
    tx_frame := fun _ =>
      ⟨hlen, sentFrame_congr (s := { s with mem := m }) rfl rfl rfl rfl (by rw [hframe, hpay, hsent])⟩
    busy_checks := fun _ => h.busy_checks hb
    before_echo := fun _ hx => absurd (hp8.1.trans hx) (by decide)
    in_echo := fun hx => by
      rcases hp with ⟨-, hc, -⟩ | ⟨hp, -⟩
      · exact hc
      · cases hp.symm.trans hx
    in_reply := fun hx => by
      rcases hp with ⟨hp, -⟩ | ⟨-, hc⟩
      · cases hp.symm.trans hx
      · exact hc
    before_reply := fun _ hx => by
      rcases hp with ⟨-, -, hc⟩ | ⟨hp, -⟩
      · exact hc
      · exact absurd hp hx }

/-- A `finish` leaves nothing of the operation to keep. -/
theorem Inv.after_finish {s : State} (r : BitVec 3) (hr : r.toNat ≤ 4) (hf : s.checks.ferr.toNat ≤ 4)
    (hm : s.mem.wf) (hl : s.liveValid = false → s.liveTs = 0#32)
    (hc : NoTimeWhenOff s.client) : Inv (finish r s) :=
  .of_idle rfl hr hf hm hl hc

/-! ### SEQ -/

theorem Inv.after_wakeWaitStep {s : State} (h : Inv s) : Inv (wakeWaitStep s) := by
  unfold wakeWaitStep
  have hend : ∀ q : List Byte, Inv (finish resOk { s with rxq := q }) := fun _ =>
    .after_finish _ (by decide) h.ferr_legal h.mem_wf h.marker_clear h.session_off
  split
  · exact hend _
  · split
    · exact hend s.rxq
    · exact h

theorem Inv.after_echoWaitStep {s : State} (h : Inv s) (hp : s.phase = phaseEchoWait) :
    Inv (echoWaitStep s) := by
  have hb : s.busy = true := busy_eq_true.2 (by rw [hp]; decide)
  have h8 : s.phase.toNat = 8 := by rw [hp]; rfl
  have hrc : s.rcount = 0#9 := h.before_reply hb (by rw [hp]; decide)
  obtain ⟨hlt, hes⟩ := h.in_echo hp
  have htaken : (echoConsume s).ecount.toNat ≤ s.flen.toNat := by
    have hk : echoTake s ≤ s.flen.toNat - s.ecount.toNat := Nat.min_le_right _ _
    have := echoConsume_ecount s
    omega
  have hfin : ∀ e : Echo, Inv (finish resEchoMismatch { echoConsume s with echo := e }) := fun _ =>
    .after_finish _ (by decide) h.ferr_legal h.mem_wf h.marker_clear h.session_off
  unfold echoWaitStep echoVerdict
  split
  · rename_i hall
    split
    · exact hfin (echoConsume s).echo
    · rename_i hsame
      have hclear : (echoConsume s).echo = Echo.clear := by
        rw [show (echoConsume s).echo = ⟨s.echo.eshort, (echoConsume s).echo.ediff⟩ from rfl, hes,
          Bool.eq_false_of_not_eq_true hsame]
        rfl
      exact h.next_wait (p := phaseReplyWait) (rc := s.rcount) (m := s.mem) h8.ge
        (.inr ⟨rfl, hall, hclear, by rw [hrc]; exact Nat.succ_pos _⟩) ⟨h.mem_wf, rfl, rfl⟩
  · rename_i hsome
    split
    · exact hfin _
    · have hlt' : (echoConsume s).ecount.toNat < s.flen.toNat :=
        lt_of_le_of_ne htaken (fun hc => hsome (BitVec.eq_of_toNat_eq hc))
      exact h.next_wait (p := s.phase) (rc := s.rcount) (m := s.mem) h8.ge
        (.inl ⟨hp, ⟨hlt', hes⟩, hrc⟩) ⟨h.mem_wf, rfl, rfl⟩

/-- What the reply capture's bytes leave of the buffers: canonical memory, the sent frame and its payload. -/
theorem replyConsume_mem {s : State} (h : Inv s) (hp : s.phase = phaseReplyWait) :
    (replyConsume s).mem.wf ∧ frameBytes { s with mem := (replyConsume s).mem } = frameBytes s ∧
    payload { s with mem := (replyConsume s).mem } = payload s := by
  have h9 : transacting s := by rw [transacting, hp]; decide
  obtain ⟨hpl, hxl⟩ := h.tx_operands h9
  obtain ⟨hfl, -⟩ := h.tx_frame h9
  obtain ⟨-, -, hrc⟩ := h.in_reply hp
  obtain ⟨-, -, -, hout⟩ := replyConsume_spec s _ hxl rfl hrc.le
  have hlow : ∀ a, a < rbufBase → readBuffer { s with mem := (replyConsume s).mem } a = readBuffer s a :=
    fun a ha => (readBuffer_congr (s := replyConsume s) (t := { s with mem := (replyConsume s).mem }) rfl
      (by rw [replyConsume_eq]) a).trans (hout a (.inl (by omega)))
  exact ⟨writeBytes_wf _ _ h.mem_wf,
    frameBytes_of_fbuf rfl (fun i hi => hlow _ (show 0x200 + i < 0x400 by omega)),
    payload_of_pbuf rfl (fun i hi => hlow _ (show 0x100 + i < 0x400 by omega))⟩

theorem Inv.after_replyWaitStep {s : State} (h : Inv s) (hp : s.phase = phaseReplyWait) :
    Inv (replyWaitStep s) := by
  have h9 : s.phase.toNat = 9 := by rw [hp]; rfl
  obtain ⟨hec, he, hlt⟩ := h.in_reply hp
  obtain ⟨hm, hbuf⟩ := replyConsume_mem h hp
  obtain ⟨hq, hrc, -⟩ := replyConsume_spec s _ (h.tx_operands (show 5 ≤ _ by omega)).2 rfl hlt.le
  have htaken : (replyConsume s).rcount.toNat ≤ replyLength s := by
    have hk : replyTake s ≤ replyLength s - s.rcount.toNat := Nat.min_le_right _ _
    omega
  unfold replyWaitStep replyVerdict
  rw [hq]
  split
  · unfold replyValidate
    split
    · exact .after_finish _ (by decide) (checkFrame_ferr_le _ _) hm (fun hx => by cases hx) h.session_off
    · exact .after_finish _ (by decide) (checkFrame_ferr_le _ _) hm h.marker_clear h.session_off
  · rename_i hsome
    split
    · exact .after_finish _ (by decide) h.ferr_legal hm h.marker_clear h.session_off
    · exact h.next_wait (p := s.phase) (by omega)
        (.inr ⟨hp, hec, he, lt_of_le_of_ne htaken hsome⟩) ⟨hm, hbuf⟩

theorem Inv.after_seqStep {s : State} (h : Inv s) : Inv (seqStep s) := by
  rcases phase_cases s.phase with hp | hp | hp | hp | hp | hp | hp | hp | hp | hp | hp
  · rw [seqStep_idle hp]; exact h
  · rw [seqStep_wakeDrain hp]
    exact h.next_phase (p := phaseWakePulse) (by rw [hp]; decide) (by decide) (by rw [hp]; decide)
  · rw [seqStep_wakePulse hp]
    exact h.next_phase (p := phaseWakeHold) (by rw [hp]; decide) (by decide) (by rw [hp]; decide)
  · rw [seqStep_wakeHold hp, wakeHoldStep]
    split
    · exact h.next_phase (p := phaseWakeWait) (by rw [hp]; decide) (by decide) (by rw [hp]; decide)
    · exact h
  · rw [seqStep_wakeWait hp]; exact h.after_wakeWaitStep
  · rw [seqStep_txDrain hp]
    exact h.next_phase (p := phaseTxWrite) (by rw [hp]; decide) (by decide) (by rw [hp]; decide)
  · rw [seqStep_txWrite hp]
    exact h.next_phase (p := phaseTxFlush) (by rw [hp]; decide) (by decide) (by rw [hp]; decide)
  · rw [seqStep_txFlush hp, txFlushStep]
    split
    · exact h.next_phase (p := phaseEchoWait) (by rw [hp]; decide) (by decide) (by rw [hp]; decide)
    · exact h
  · rw [seqStep_echoWait hp]; exact h.after_echoWaitStep hp
  · rw [seqStep_replyWait hp]; exact h.after_replyWaitStep hp
  · rw [seqStep_reserved hp]; exact h

/-! ### RST, register writes and commands -/

theorem Inv.after_assertReset {s : State} (h : Inv s) : Inv (assertReset s) :=
  .of_idle rfl (Nat.zero_le _) (Nat.zero_le _) nil_wf (fun _ => rfl) h.session_off

/-- LASTOP is not read by the invariant, while IDLE. -/
theorem Inv.after_lastOp {s : State} (h : Inv s) (hb : s.busy = false) (op : BitVec 4) :
    Inv { s with lastOp := op } :=
  .of_idle (busy_eq_false.1 hb) h.res_legal h.ferr_legal h.mem_wf h.marker_clear h.session_off

theorem Inv.after_refuse {s : State} (h : Inv s) (hb : s.busy = false) : Inv (refuse s) :=
  .of_idle (busy_eq_false.1 hb) (le_refl 4) h.ferr_legal h.mem_wf h.marker_clear h.session_off

/-- A command write while BUSY sets CMD_ERR, which the invariant does not read. -/
theorem Inv.after_commandWhileBusy {s : State} (h : Inv s) : Inv (commandWhileBusy s) :=
  h.of_quiet (err := true) h.session_off

theorem Inv.after_illegalCommand {s : State} (h : Inv s) (c : Byte) : Inv (illegalCommand c s) := by
  unfold illegalCommand
  split
  · exact h.after_commandWhileBusy
  · have hb := Bool.eq_false_of_not_eq_true ‹_›
    exact (h.after_lastOp hb _).after_refuse hb

theorem Inv.after_clearResults {s : State} (h : Inv s) (hb : s.busy = false) : Inv (clearResults s) :=
  .of_idle (busy_eq_false.1 hb) h.res_legal (Nat.zero_le 4) h.mem_wf h.marker_clear h.session_off

/-- Acceptance keeps the invariant if the accept step does, from an IDLE state with its results cleared. -/
theorem Inv.after_acceptCommand {s : State} (h : Inv s) {op : BitVec 4} {l : Bool} {f : State → State}
    (hf : l = true → s.busy = false → Inv { s with lastOp := op } →
      Inv (f (clearResults { s with lastOp := op }))) : Inv (acceptCommand op l f s) := by
  rcases acceptCommand_cases op l f s with ⟨-, he⟩ | ⟨hb, hl, he⟩ | ⟨hb, -, he⟩ <;> rw [he]
  · exact h.after_commandWhileBusy
  · exact hf hl hb (h.after_lastOp hb op)
  · exact (h.after_lastOp hb op).after_refuse hb

theorem Inv.after_writeOperand {s : State} (h : Inv s) (a : Addr) (v : Byte) : Inv (writeOperand a v s) := by
  rcases writeOperand_cases a v s with ⟨-, he⟩ | ⟨hb, he, hm⟩
  · rw [he]; exact h
  · rw [he]
    exact .of_idle (busy_eq_false.1 hb) h.res_legal h.ferr_legal (hm h.mem_wf) h.marker_clear h.session_off

theorem Inv.after_writeOperands {s : State} (h : Inv s) (a : Addr) (bs : List Byte) :
    Inv (writeOperands a bs s) := by
  induction bs generalizing a s with
  | nil => exact h
  | cons b bs ih => exact ih (h.after_writeOperand a b) (a + 1#12)

theorem Inv.after_writeRequest {s : State} (h : Inv s) (p : List Byte) (e : Byte) : Inv (writeRequest p e s) :=
  ((h.after_writeOperands _ p).after_writeOperand _ _).after_writeOperand _ _

/-- An operation begins with its results cleared: a wake with WOKE set, a TRANSACT with its operands in
range and its frame in FBUF. -/
theorem Inv.begins {s : State} (h : Inv s) {p : BitVec 4} {w : Bool} {m : Memory} {f : Count} (hm : m.wf)
    (hp : (p = phaseWakeDrain ∧ w = true) ∨
      (p = phaseTxDrain ∧ transactLegal s = true ∧ f.toNat = payloadLength s + 3 ∧
        frameBytes { s with mem := m, flen := f } =
          frame Config.addrOut (payload { s with mem := m, flen := f }))) :
    Inv { clearResults s with phase := p, woke := w, mem := m, flen := f } := by
  have hle : p.toNat ≤ 5 := by rcases hp with ⟨rfl, -⟩ | ⟨rfl, -⟩ <;> decide
  have hno : ∀ r : BitVec 4, 5 < r.toNat → p ≠ r := fun r hr hc => by subst hc; omega
  have htx : 5 ≤ p.toNat → transactLegal s = true ∧ f.toNat = payloadLength s + 3 ∧
      frameBytes { s with mem := m, flen := f } =
        frame Config.addrOut (payload { s with mem := m, flen := f }) := fun hx => by
    rcases hp with ⟨rfl, -⟩ | ⟨-, hc⟩
    · exact absurd hx (by decide)
    · exact hc
  exact {
    phase_legal := hle.trans (by decide)
    res_legal := h.res_legal
    ferr_legal := Nat.zero_le 4
    mem_wf := hm
    busy_not_done := fun _ => rfl
    marker_clear := h.marker_clear
    waking_woke := fun hk => by
      rcases hp with ⟨-, hw⟩ | ⟨rfl, -⟩
      · exact hw
      · exact absurd hk.2 (show ¬phaseTxDrain.toNat ≤ 4 by decide)
    tx_operands := fun hx => (transactLegal_iff s).1 (htx hx).1
    tx_frame := fun hx => by
      obtain ⟨-, hlen, hsent⟩ := htx hx
      exact ⟨hlen, sentFrame_congr (s := { s with mem := m, flen := f }) rfl rfl rfl rfl hsent⟩
    busy_checks := fun _ => rfl
    before_echo := fun _ _ => ⟨rfl, rfl⟩
    in_echo := fun hx => absurd hx (hno _ (by decide))
    in_reply := fun hx => absurd hx (hno _ (by decide))
    before_reply := fun _ _ => rfl
    session_off := h.session_off }

theorem Inv.after_encodeAccept {s : State} (h : Inv s) : Inv (encodeAccept s) := by
  unfold encodeAccept
  rw [buildFrame_eq]
  exact .after_finish _ (Nat.zero_le 4) h.ferr_legal (buildFrame_wf _ h.mem_wf) h.marker_clear h.session_off

theorem Inv.after_validateAccept {s : State} (h : Inv s) : Inv (validateAccept s) := by
  have hr : ∀ c, (validationResult c).toNat ≤ 4 := fun c => by
    unfold validationResult
    split <;> decide
  exact .after_finish _ (hr _) (checkFrame_ferr_le _ _) h.mem_wf h.marker_clear h.session_off

theorem Inv.after_drainAccept {s : State} (h : Inv s) : Inv (drainAccept s) :=
  .after_finish _ (Nat.zero_le 4) h.ferr_legal h.mem_wf h.marker_clear h.session_off

theorem Inv.after_ensureAwakeAccept {s : State} (h : Inv s) : Inv (ensureAwakeAccept (clearResults s)) := by
  unfold ensureAwakeAccept
  split
  · exact .after_finish _ (Nat.zero_le 4) (Nat.zero_le 4) h.mem_wf h.marker_clear h.session_off
  · exact h.begins h.mem_wf (.inl ⟨rfl, rfl⟩)

theorem Inv.after_transactAccept {s : State} (h : Inv s) (hl : transactLegal s = true) :
    Inv (transactAccept (clearResults s)) := by
  have hpl : payloadLength (clearResults s) ≤ 254 := ((transactLegal_iff s).1 hl).1
  obtain ⟨hframe, hflen, heq, hout⟩ := buildFrame_spec Config.addrOut (clearResults s) hpl
  have hpay : payload (buildFrame Config.addrOut (clearResults s)) = payload (clearResults s) :=
    payload_of_pbuf (by rw [heq]) (fun i hi => hout _ (.inl (show 0x100 + i < 0x200 by omega)))
  have hsent := hframe.trans (congrArg (frame Config.addrOut) hpay.symm)
  unfold transactAccept
  rw [heq]
  refine h.begins (buildFrame_wf _ h.mem_wf) (.inr ⟨rfl, hl, hflen, ?_⟩)
  exact sentFrame_congr (s := buildFrame Config.addrOut (clearResults s)) rfl
    (congrArg State.epoch heq).symm (congrArg State.plen heq).symm rfl hsent

theorem Inv.after_writeTransact {s : State} (h : Inv s) : Inv (writeTransact s) :=
  h.after_acceptCommand (fun hl _ hi => hi.after_transactAccept hl)

theorem Inv.after_commandWrite {s : State} (h : Inv s) (i : Instr) : Inv (commandWrite i s) := by
  cases i with
  | encode => exact h.after_acceptCommand (fun _ hb hi => (hi.after_clearResults hb).after_encodeAccept)
  | validate => exact h.after_acceptCommand (fun _ hb hi => (hi.after_clearResults hb).after_validateAccept)
  | ensureAwake => exact h.after_acceptCommand (fun _ _ hi => hi.after_ensureAwakeAccept)
  | transact => exact h.after_writeTransact
  | drain => exact h.after_acceptCommand (fun _ hb hi => (hi.after_clearResults hb).after_drainAccept)
  | _ => exact h

/-! ### The session of the client -/

theorem seqStep_client (s : State) : (seqStep s).client = s.client := by rw [seqStep_eq]

theorem clientPoll_client (s : State) : (clientPoll s).client = s.client := by
  unfold clientPoll
  split
  · rfl
  · split
    · rfl
    · exact seqStep_client (clientRead regStatus s)

theorem tickDrain_client (d : Bool) (s : State) : (tickDrain d s).client = s.client := by
  unfold tickDrain
  split
  · exact writeDrain_client s
  · rfl

/-- A tick leaves the session alone: it drains the block or starts a job. -/
theorem clientTick_session {d : Bool} {s t : State} (he : clientTick d s = .next t) :
    t.client.session = s.client.session := by
  unfold clientTick at he
  split at he
  · cases he
  · cases he
    rw [tickTask_client, tickDrain_client]

/-- No event leaves time on a session that is off: of the client's session an event changes nothing but by
the client's instructions and moves. -/
theorem runEvent_session_off {e : Event} {s t : State} (he : runEvent e s = .next t)
    (h : NoTimeWhenOff s.client) : NoTimeWhenOff t.client := by
  have same : ∀ u : State, Host.Outcome.next u = runEvent e s → u.client = s.client →
      NoTimeWhenOff t.client := fun u hr hu => by
    cases hr.trans he
    rw [hu]
    exact h
  cases e with
  | write a v =>
    simp only [runEvent, clientWrite] at he
    split at he
    · split at he
      · exact exec_session_off he h
      · cases he
        unfold illegalCommand
        split <;> exact h
    · cases he
      rw [writeOperand_client]
      exact h
  | read a => exact same _ rfl rfl
  | poll => exact same _ rfl (clientPoll_client s)
  | seq => exact same _ rfl (seqStep_client s)
  | rx bs => exact same _ rfl rfl
  | txIdle b => exact same _ rfl rfl
  | clockTo ms =>
    simp only [runEvent, clockTo] at he
    split at he <;> cases he
    exact h
  | rst => exact same _ rfl rfl
  | payload bs =>
    simp only [runEvent, clientPayload] at he
    split at he
    · exact exec_session_off he h
    · cases he
  | line b err =>
    obtain ⟨bs, -, hq⟩ := phyReceive_eq b err s
    exact same _ rfl (by rw [hq])
  | phyRemove k =>
    simp only [runEvent, phyRemove] at he
    split at he <;> cases he
    exact h
  | call c =>
    simp only [runEvent, clientCall] at he
    split at he <;> cases he
    exact h
  | tick d =>
    rw [NoTimeWhenOff, clientTick_session he]
    exact h
  | client => exact clientMove_session_off he h

/-- No step leaves time on a session that is off (R268). -/
theorem step_session_off {s t : State} (he : step s = .next t) (h : NoTimeWhenOff s.client) :
    NoTimeWhenOff t.client := by
  unfold step at he
  split at he
  · cases he
  · split at he
    · exact runEvent_session_off he h
    · unfold idleMove at he
      split at he
      · cases he
        rw [seqStep_client]
        exact h
      · exact clientMove_session_off he h

/-! ### The obligations -/

/-- Settles O2: at reset the block is IDLE, so the clauses on operations in progress are empty. -/
theorem resetSatisfiesInvariant : Obligations.ResetSatisfiesInvariant :=
  .of_idle rfl (by decide) (by decide) nil_wf (fun _ => rfl) (fun _ => rfl)

/-- Settles O37: each kind of step (`step_cases`) keeps the invariant by the lemma of its operation. -/
theorem everyStepKeepsInvariant : Obligations.EveryStepKeepsInvariant := by
  intro s t h hs
  have hoff := step_session_off hs h.session_off
  obtain ⟨-, b, hb, k⟩ := step_cases hs
  have hi : Inv b := by rw [hb]; exact h.of_quiet h.session_off
  cases k with
  | quiet ht _ => rw [ht]; exact hi.of_quiet hoff
  | clock ms _ _ ht => rw [ht]; exact hi.of_quiet hi.session_off
  | seq ht => rw [ht]; exact hi.after_seqStep.of_quiet hi.after_seqStep.session_off
  | reset _ ht => rw [ht]; exact hi.after_assertReset
  | command i _ ht => rw [ht]; exact (hi.after_commandWrite i).of_quiet hoff
  | illegal c ht => rw [ht]; exact hi.after_illegalCommand c
  | operand a v ht => rw [ht]; exact hi.after_writeOperand a v
  | request i _ e ht => rw [ht]; exact (hi.after_writeRequest _ e).after_writeTransact.of_quiet hoff

end Sys2Proof.Machine
end

section
/-! PROOFS. What a step leaves of the client's operands and buffers while BUSY, and the moves of the client on
its job (O40, O58). -/

namespace Sys2Proof.Machine

/-! ### The buffers under a SEQ step -/

/-- The reply's bytes go to RBUF: every byte below it is as it was (R229). -/
theorem readBuffer_replyConsume (s : State) {a : Nat} (ha : a < rbufBase) :
    readBuffer (replyConsume s) a = readBuffer s a := by
  have hout := readBuffer_writeBytes_outside (rxTake (replyTake s) s) (rbufBase + s.rcount.toNat) a
    (s.rxq.take (replyTake s)) (.inl (by omega))
  exact (readBuffer_congr rfl rfl a).trans (hout.trans (readBuffer_congr rfl rfl a))

/-- The verdict on a reply writes no buffer byte. -/
theorem replyVerdict_mem (s : State) : (replyVerdict s).mem = s.mem := by
  unfold replyVerdict
  split
  · unfold replyValidate
    split <;> rfl
  · split <;> rfl

/-- Only in REPLY_WAIT does SEQ write a buffer byte. -/
theorem seqStep_mem {s : State} (h : s.phase ≠ phaseReplyWait) : (seqStep s).mem = s.mem := by
  rcases phase_cases s.phase with hp | hp | hp | hp | hp | hp | hp | hp | hp | hp | hp
  · rw [seqStep_idle hp]
  · rw [seqStep_wakeDrain hp]; rfl
  · rw [seqStep_wakePulse hp]; rfl
  · rw [seqStep_wakeHold hp, wakeHoldStep]
    split <;> rfl
  · rw [seqStep_wakeWait hp, wakeWaitStep]
    split
    · rfl
    · split <;> rfl
  · rw [seqStep_txDrain hp]; rfl
  · rw [seqStep_txWrite hp]; rfl
  · rw [seqStep_txFlush hp, txFlushStep]
    split <;> rfl
  · rw [seqStep_echoWait hp, echoWaitStep, echoVerdict]
    split
    · split <;> rfl
    · split <;> rfl
  · exact absurd hp h
  · rw [seqStep_reserved hp]

/-- Of the buffers SEQ writes RBUF only. -/
theorem readBuffer_seqStep (s : State) {a : Nat} (ha : a < rbufBase) :
    readBuffer (seqStep s) a = readBuffer s a := by
  have hepoch : (seqStep s).epoch = s.epoch := by rw [seqStep_eq]
  by_cases hp : s.phase = phaseReplyWait
  · have hmem : (seqStep s).mem = (replyConsume s).mem := by
      rw [seqStep_replyWait hp, replyWaitStep, replyVerdict_mem]
    have hread : readBuffer (seqStep s) a = readBuffer (replyConsume s) a :=
      readBuffer_congr hmem (hepoch.trans (congrArg State.epoch (replyConsume_eq s)).symm) a
    rw [hread, readBuffer_replyConsume s ha]
  · exact readBuffer_congr (seqStep_mem hp) hepoch a

/-- PBUF and FBUF lie below RBUF (R47). -/
theorem lt_rbufBase_of_client {a : Nat} (h : isClientBuffer a = true) : a < rbufBase := by
  rw [isClientBuffer_iff] at h
  show a < 0x400
  omega

/-- Settles O40: while BUSY a step that is not RST is a SEQ step, which writes no operand and of the buffers
RBUF only, or leaves operands and buffers alone (`step_busy`). -/
theorem operandsFrozenWhileBusy : Obligations.OperandsFrozenWhileBusy := by
  intro s t hs hb hr
  rcases step_busy hs hb with ⟨hr', -⟩ | ⟨-, b, hbs, ht⟩ | ⟨-, ht⟩
  · cases hr.symm.trans hr'
  · have hbuf : ∀ a, isClientBuffer a = true → readBuffer t a = readBuffer s a := fun a ha => by
      calc readBuffer t a = readBuffer (seqStep b) a := by rw [ht]; exact readBuffer_congr rfl rfl a
        _ = readBuffer b a := readBuffer_seqStep b (lt_rbufBase_of_client ha)
        _ = readBuffer s a := by rw [hbs]; exact readBuffer_congr rfl rfl a
    rw [seqStep_eq, hbs] at ht
    exact ⟨by rw [ht], by rw [ht], by rw [ht], by rw [ht], hbuf⟩
  · rw [ht]
    exact ⟨rfl, rfl, rfl, rfl, fun a _ => readBuffer_congr rfl rfl a⟩

/-! ### The client's moves on its job -/

theorem clientMove_job {s : State} {j : Job} (h : s.client.job = some j) : clientMove s = moveJob j s := by
  simp only [clientMove, h]

/-- A job makes any call a second concurrent caller (R90; log 20). -/
theorem clientCall_concurrent {s : State} {j : Job} (h : s.client.job = some j) (c : ClientCall) :
    clientCall c s = .fault .concurrentCaller := by
  simp only [clientCall, h]

theorem clientTick_concurrent {s : State} {j : Job} (h : s.client.job = some j) (d : Bool) :
    clientTick d s = .fault .concurrentCaller := by
  simp only [clientTick, h]

theorem clientCall_starts {s : State} (h : s.client.job = none) (c : ClientCall) :
    clientCall c s = .next (startJob (callRequest s.pace c) s.pace.attempts s) := by
  simp only [clientCall, h]

/-- After an instruction the client goes on from the state it answers. -/
theorem andThen_exec (i : Instr) (s : State) (f : State → Host.Outcome State Fault Refusal) :
    ∃ t, exec i s = .next t ∧ andThen (exec i s) f = f t := by
  obtain ⟨t, ht⟩ := exec_next i s
  exact ⟨t, ht, by rw [ht]; rfl⟩

section Stages

variable {s : State} {j : Job}

theorem moveJob_wake (hg : j.stage = .wake) : moveJob j s = if s.busy then .next s else
    andThen (exec .ensureAwake s) (fun t => .next (advanceJob j .wakeWait t)) := by
  simp only [moveJob, hg]

theorem moveJob_wakeWait (hg : j.stage = .wakeWait) :
    moveJob j s = if s.done then .next (advanceJob j .send s) else .next s := by
  simp only [moveJob, hg]

theorem moveJob_send (hg : j.stage = .send) : moveJob j s = if s.busy then .next s else
    andThen (exec j.request s) (fun t => .next (advanceJob j .replyWait t)) := by
  simp only [moveJob, hg]

theorem moveJob_replyWait (hg : j.stage = .replyWait) :
    moveJob j s = if s.done then finishAttempt j s else .next s := by
  simp only [moveJob, hg]

/-- A block error fails the attempt (R264, R277). -/
theorem finishAttempt_blockError (j : Job) (hr : s.res ≠ resOk) :
    finishAttempt j s = .next (settleJob j (settleReply (.blockError s.res) s)) := if_pos hr

/-- TRANSACT returned OK. -/
theorem finishAttempt_transact (j : Job) (hr : s.res = resOk) (hl : s.lastOp = 4#4) :
    finishAttempt j s = testReply j s := by
  rw [finishAttempt, if_neg (not_not.2 hr), if_pos hl]

/-- OK of another command leaves no reply to test (log 16). -/
theorem finishAttempt_other (j : Job) (hr : s.res = resOk) (hl : s.lastOp ≠ 4#4) :
    finishAttempt j s = .next (settleJob j (settleReply .noReply s)) := by
  rw [finishAttempt, if_neg (not_not.2 hr), if_neg hl]

/-- A reply that is an acknowledgement row is run (R260, R264). -/
theorem testReply_ack (j : Job) {i : Instr} (hd : decodePayload (replyPayload s) = .ok i)
    (hi : i.isAck = true) : ∃ t, exec i s = .next t ∧ testReply j s = .next (settleJob j t) := by
  simp only [testReply, hd, if_pos hi]
  exact andThen_exec i s _

/-- Any other reply is CommandNotAcknowledged (R264). -/
theorem testReply_notAck (j : Job)
    (h : ∀ i, decodePayload (replyPayload s) = .ok i → i.isAck = false) :
    testReply j s = .next (settleJob j (notAcknowledged s)) := by
  unfold testReply
  split
  · rename_i i hd
    exact if_neg (by rw [h i hd]; decide)
  · rfl

/-- The last attempt failed: the operation is over (R268). -/
theorem settleJob_exhausted (ha : j.attempts ≤ 1) (s : State) : settleJob j s = endJob j s := by
  rcases settleJob_cases j s with ⟨-, he⟩ | ⟨-, hlt, -⟩
  · exact he
  · omega

/-- An attempt failed and another is left (R268). -/
theorem settleJob_again (hc : s.client.outcome ≠ .confirmed) (ha : 1 < j.attempts) :
    settleJob j s = setJob (some { j with attempts := j.attempts - 1, stage := .wake }) s := by
  rcases settleJob_cases j s with ⟨hover, -⟩ | ⟨-, -, he⟩
  · exact absurd hover (not_or.2 ⟨hc, by omega⟩)
  · exact he

end Stages

/-- Settles O58: each clause is one branch of the job's stage (`moveJob_wake` to `moveJob_replyWait`), of the
attempt's end (`finishAttempt_blockError`, `testReply_ack`, `settleJob_again`), or of a call. -/
theorem attemptWakesSendsAndTests : Obligations.AttemptWakesSendsAndTests := by
  refine ⟨fun s j hj => ?_, fun s hj => ?_, rfl, rfl⟩
  · rw [clientMove_job hj]
    have blockError : j.stage = .replyWait → s.done = true → s.res ≠ resOk →
        moveJob j s = .next (settleJob j (settleReply (.blockError s.res) s)) := fun hg hd hr => by
      rw [moveJob_replyWait hg, if_pos hd, finishAttempt_blockError j hr]
    refine ⟨fun hg hb => ?_, fun hg hb => ?_, fun hg hd => ?_, fun hg hd => ?_, fun hg hb => ?_,
      fun hg hb => ?_, fun hg hd => ?_, blockError, fun hg hd hr ha hc => ?_, fun hg hd hr ha => ?_,
      fun hg hd hr hl => ?_, fun hg hd hr hl => ?_, clientCall_concurrent hj, clientTick_concurrent hj⟩
    · rw [moveJob_wake hg, if_pos hb]
    · rw [moveJob_wake hg, if_neg (by rw [hb]; decide)]
      exact andThen_exec .ensureAwake s _
    · rw [moveJob_wakeWait hg, if_neg (by rw [hd]; decide)]
    · rw [moveJob_wakeWait hg, if_pos hd]
      rfl
    · rw [moveJob_send hg, if_pos hb]
    · rw [moveJob_send hg, if_neg (by rw [hb]; decide)]
      exact andThen_exec j.request s _
    · rw [moveJob_replyWait hg, if_neg (by rw [hd]; decide)]
    · rw [blockError hg hd hr, settleJob_exhausted ha, endJob_other hc]
      rfl
    · rw [blockError hg hd hr, settleJob_again (fun hc => by cases hc) ha]
      rfl
    · rw [moveJob_replyWait hg, if_pos hd, finishAttempt_transact j hr hl]
      exact ⟨fun _ => testReply_ack j, testReply_notAck j⟩
    · rw [moveJob_replyWait hg, if_pos hd, finishAttempt_other j hr hl]
      rfl
  · have hcall := clientCall_starts hj
    exact ⟨fun m => hcall (.heatOn (some m)), hcall (.heatOn none), fun m => hcall (.ventOn (some m)),
      hcall (.ventOn none), hcall .off⟩

end Sys2Proof.Machine
end

section
/-! PROOFS. The decoder inverts the encoder: command words, payloads, and both as one table of words
(O4, O5, O6). -/

namespace Sys2Proof

/-! ### Command words -/

theorem rsvField_append_opField (c : Byte) : rsvField c ++ opField c = c := by
  apply BitVec.eq_of_toNat_eq
  have hc := c.isLt
  rw [Machine.append_toNat]
  simp only [rsvField, opField, BitVec.extractLsb'_toNat, Nat.shiftRight_eq_div_pow]
  omega

/-- The OP of a command word, below reserved bits of 0, is its encoding (R120, R121). -/
theorem encode_of_decodeOp {op : BitVec 4} {i : Instr} (h : decodeOp op = .ok i) : encode i = [0#4 ++ op] := by
  unfold decodeOp at h
  repeat' split at h
  all_goals cases h
  all_goals (subst op; rfl)

theorem encode_of_decodeCommand {c : Byte} {i : Instr} (h : decodeCommand c = .ok i) : encode i = [c] := by
  unfold decodeCommand at h
  split at h
  · rename_i hr
    rw [encode_of_decodeOp h, ← hr, rsvField_append_opField]
  · cases h

theorem decodeCommand_commandWord {i : Instr} (h : i.isCommand = true) :
    decodeCommand (commandWord i) = .ok i := by
  cases i with
  | encode | validate | ensureAwake | transact | drain => rfl
  | _ => cases h

/-- An OP that is no operation is 0x0 or 0x6 to 0xF (R120, R123). -/
theorem op_of_decodeOp_error {op : BitVec 4} {e : DecodeError} (h : decodeOp op = .error e) :
    op = 0#4 ∨ 6 ≤ op.toNat := by
  unfold decodeOp at h
  repeat' split at h
  case isFalse.isFalse.isFalse.isFalse.isFalse => bv_omega
  all_goals cases h

theorem fields_of_decodeCommand_error {c : Byte} {e : DecodeError} (h : decodeCommand c = .error e) :
    rsvField c ≠ 0#4 ∨ opField c = 0#4 ∨ 6 ≤ (opField c).toNat := by
  unfold decodeCommand at h
  split at h
  · exact .inr (op_of_decodeOp_error h)
  · exact .inl ‹_›

/-- Settles O6: a byte that decodes is its reserved bits, 0, above the OP its command encodes. -/
theorem commandWordsExact : Obligations.CommandWordsExact := by
  refine ⟨fun c i => ⟨fun h => ⟨decodeCommand_command h, encode_of_decodeCommand h⟩, ?_⟩, fun c => ⟨?_, ?_⟩⟩
  · rintro ⟨hi, hc⟩
    have hw : commandWord i = c := by rw [commandWord, hc]; rfl
    rw [← hw, decodeCommand_commandWord hi]
  · rintro ⟨e, he⟩
    exact fields_of_decodeCommand_error he
  · exact Machine.decodeCommand_error

/-! ### Every row -/

theorem decode_of_decodeCommand {c : Byte} {i : Instr} (h : decodeCommand c = .ok i) : decode [c] = .ok i := by
  simp only [decode, h]

/-- A command word is no payload of the table, so reading it as a command first hides no row (R120, R129). -/
theorem decodePayload_command {i : Instr} (h : i.isCommand = true) (j : Instr) :
    decodePayload (encode i) ≠ .ok j := by
  cases i with
  | encode | validate | ensureAwake | transact | drain => exact nofun
  | _ => cases h

theorem decode_of_decodePayload {bs : List Byte} {i : Instr} (h : decodePayload bs = .ok i) :
    decode bs = .ok i := by
  unfold decode
  split
  · rename_i c
    cases hd : decodeCommand c with
    | ok j =>
      rw [← encode_of_decodeCommand hd] at h
      exact absurd h (decodePayload_command (decodeCommand_command hd) i)
    | error e => exact h
  · exact h

theorem decodePayload_encode {i : Instr} (h : i.isCommand = false) : decodePayload (encode i) = .ok i := by
  cases i with
  | encode | validate | ensureAwake | transact | drain => cases h
  | _ => rfl

theorem encode_command {i : Instr} (h : i.isCommand = true) : encode i = [commandWord i] :=
  encode_of_decodeCommand (decodeCommand_commandWord h)

theorem decode_encode (i : Instr) : decode (encode i) = .ok i := by
  cases hi : i.isCommand
  · exact decode_of_decodePayload (decodePayload_encode hi)
  · rw [encode_command hi]
    exact decode_of_decodeCommand (decodeCommand_commandWord hi)

theorem decodeTableWord_encode (i : Instr) :
    decodeTableWord (8 * (encode i).length) (tableWord (encode i)) = some i := by
  rw [decodeTableWord, tableBytes_tableWord, decode_encode]

/-- Settles O5: a command word decodes as a command, every other row as a payload that is no command word; and a
table word gives its bytes back. -/
theorem everyInstructionRoundTrips : Obligations.EveryInstructionRoundTrips :=
  fun i => ⟨decode_encode i, decodeTableWord_encode i⟩

/-- Settles O4: each word written out is the table word of its instruction's bytes. -/
theorem specWordsDecode : Obligations.SpecWordsDecode :=
  ⟨decodeTableWord_encode .encode, decodeTableWord_encode .validate, decodeTableWord_encode .ensureAwake,
    decodeTableWord_encode .transact, decodeTableWord_encode .drain, decodeTableWord_encode .off,
    decodeTableWord_encode (.heatOn 5#8), decodeTableWord_encode (.heatOnAck 5#8),
    decodeTableWord_encode (.check 0x21#8), decodeTableWord_encode .queryCounters,
    decodeTableWord_encode .queryAck⟩

end Sys2Proof
end

section
/-! PROOFS. The layout of a frame, TRANSACT's acceptance and the requests that start one, and the faults of
reserved encodings (O19, O46, O49). -/

namespace Sys2Proof.Machine

/-! ### Frames -/

theorem frame_dropLast (a : Byte) (p : List Byte) : (frame a p).dropLast = frameBody a p :=
  List.dropLast_concat

theorem frame_getLast? (a : Byte) (p : List Byte) : (frame a p).getLast? = some (xorFold (frameBody a p)) :=
  List.getLast?_concat

/-- All bytes of a frame XOR to 0x00 (R113). -/
theorem xorFold_frame (a : Byte) (p : List Byte) : xorFold (frame a p) = 0#8 := by
  rw [frame, xorFold_append, xorFold_cons, xorFold_nil, BitVec.xor_zero, BitVec.xor_self]

theorem lengthByte_toNat {n : Nat} (h : n ≤ 254) : (lengthByte n).toNat = n + 1 := by
  rw [lengthByte, BitVec.toNat_ofNat]
  omega

/-- Settles O19: the length byte holds n + 1 because n is at most 254, and the checksum cancels the bytes before
it. -/
theorem frameLayout : Obligations.FrameLayout := by
  intro a p hp
  refine ⟨frame_length a p, rfl, congrArg some (lengthByte_toNat hp), ?_, ?_, xorFold_frame a p⟩
  · exact List.take_left
  · rw [frame_getLast?, frame_dropLast]

/-! ### TRANSACT accepted, and the requests that start one -/

/-- Everything TRANSACT's command word does when it is accepted: the frame of PBUF's payload is in FBUF, its
length in FLEN, the phase is TX_DRAIN, the results are cleared, and nothing else has changed (R43, R223). -/
theorem writeTransact_accepted {s : State} (hb : s.busy = false) (hl : transactLegal s = true) :
    payload (writeTransact s) = payload s ∧
    frameBytes (writeTransact s) = frame Config.addrOut (payload s) ∧
    (writeTransact s).flen.toNat = payloadLength s + 3 ∧
    writeTransact s = { s with
      mem := (writeTransact s).mem, flen := (writeTransact s).flen, phase := phaseTxDrain, lastOp := 4#4,
      done := false, cmdErr := false, checks := Checks.clear, echo := Echo.clear, ecount := 0#9, rcount := 0#9 } ∧
    ∀ a, outside fbufBase (payloadLength s + 3) a → readBuffer (writeTransact s) a = readBuffer s a := by
  have hn : payloadLength s ≤ 254 := ((transactLegal_iff s).1 hl).1
  have hw : writeTransact s = transactAccept (clearResults { s with lastOp := 0x4#4 }) :=
    acceptCommand_accepted hb hl
  obtain ⟨hframe, hflen, hbuilt, hout⟩ :=
    buildFrame_spec Config.addrOut (clearResults { s with lastOp := 0x4#4 }) hn
  have hread : ∀ a, outside fbufBase (payloadLength s + 3) a →
      readBuffer (writeTransact s) a = readBuffer s a := fun a ha => by
    rw [hw]
    exact hout a ha
  have heq : writeTransact s = { s with
      mem := (writeTransact s).mem, flen := (writeTransact s).flen, phase := phaseTxDrain, lastOp := 4#4,
      done := false, cmdErr := false, checks := Checks.clear, echo := Echo.clear, ecount := 0#9,
      rcount := 0#9 } := by
    rw [hw, transactAccept, hbuilt]
    rfl
  refine ⟨?_, ?_, ?_, heq, hread⟩
  · exact payload_of_pbuf (by rw [heq]) (fun i hi => hread _ (.inl (show 0x100 + i < 0x200 by omega)))
  · have hpay : payload (clearResults { s with lastOp := 0x4#4 }) = payload s := payload_congr rfl rfl rfl
    rw [hw, ← hpay, ← hframe]
    exact frameBytes_congr rfl rfl rfl
  · rw [hw]
    exact hflen

/-- Settles O49: the request's writes put its payload and lengths in place, with which TRANSACT is accepted. -/
theorem requestsSendTheirPayload : Obligations.RequestsSendTheirPayload := by
  intro s i hi hb he
  have hle := encode_length_le i
  obtain ⟨heq, hpay, hlen, hout⟩ :=
    writeRequest_spec (encode i) (replyLenOf s.params.replyLen i) hb (by omega)
  refine ⟨_, exec_request hi s, ?_⟩
  rw [sendRequest]
  generalize writeRequest (encode i) (replyLenOf s.params.replyLen i) s = u at heq hpay hlen hout ⊢
  have hbu : u.busy = false := by rw [heq]; exact hb
  have hlegal : transactLegal u = true := (transactLegal_iff u).2 ⟨by omega, by rw [heq]; exact he⟩
  obtain ⟨htpay, htframe, htflen, hteq, htout⟩ := writeTransact_accepted hbu hlegal
  rw [hpay] at htpay htframe
  rw [hlen] at htflen htout
  refine ⟨?_, ?_, htflen, ?_, ?_, fun a hp hf => ?_⟩
  · rw [← htpay]
    exact payload_congr rfl rfl rfl
  · rw [← show Config.addrOut = 0xF4#8 from rfl, ← htframe]
    exact frameBytes_congr rfl rfl rfl
  · show (writeTransact u).plen.toNat = _
    rw [hteq]
    exact hlen
  · rw [hteq, heq]
    rfl
  · exact (htout a hf).trans (hout a hp)

/-! ### Reserved encodings -/

theorem step_reservedFault {s : State} {f : Fault} (h : reservedFault s = some f) : step s = .fault f := by
  simp only [step, h]

/-- Settles O46: the three tests of `reservedFault`, in their order. -/
theorem reservedEncodingsFault : Obligations.ReservedEncodingsFault := by
  refine fun s => ⟨fun hp => ?_, fun hp hr => ?_, fun hp hr hf => ?_⟩ <;> apply step_reservedFault
  · exact if_pos hp
  · exact (if_neg (by omega)).trans (if_pos hr)
  · exact (if_neg (by omega)).trans ((if_neg (by omega)).trans (if_pos hf))

end Sys2Proof.Machine
end

section
/-! PROOFS. What the block hands to the PHY (O43). -/

namespace Sys2Proof.Machine

/-! ### Only two phases of SEQ hand something to the PHY -/

theorem replyVerdict_phyOut (s : State) : (replyVerdict s).phyOut = s.phyOut := by
  unfold replyVerdict
  split
  · unfold replyValidate
    split <;> rfl
  · split <;> rfl

theorem echoVerdict_phyOut (s : State) : (echoVerdict s).phyOut = s.phyOut := by
  unfold echoVerdict
  split
  · split <;> rfl
  · split <;> rfl

/-- Outside TX_WRITE and WAKE_PULSE SEQ hands nothing to the PHY (R151, R154). -/
theorem seqStep_phyOut {s : State} (hwrite : s.phase ≠ phaseTxWrite) (hpulse : s.phase ≠ phaseWakePulse) :
    (seqStep s).phyOut = s.phyOut := by
  rcases phase_cases s.phase with hp | hp | hp | hp | hp | hp | hp | hp | hp | hp | hp
  · rw [seqStep_idle hp]
  · rw [seqStep_wakeDrain hp]; rfl
  · exact absurd hp hpulse
  · rw [seqStep_wakeHold hp, wakeHoldStep]
    split <;> rfl
  · rw [seqStep_wakeWait hp, wakeWaitStep]
    split
    · rfl
    · split <;> rfl
  · rw [seqStep_txDrain hp]; rfl
  · exact absurd hp hwrite
  · rw [seqStep_txFlush hp, txFlushStep]
    split <;> rfl
  · rw [seqStep_echoWait hp, echoWaitStep, echoVerdict_phyOut]; rfl
  · rw [seqStep_replyWait hp, replyWaitStep, replyVerdict_phyOut, replyConsume_eq]
  · rw [seqStep_reserved hp]

/-! ### Of all steps only SEQ's hands something to the PHY -/

/-- Accesses, events of PHY, CLOCK and RST, and the client's moves leave what was handed to the PHY alone. -/
theorem StepKind.phyOut {s b t : State} (k : StepKind s b t) :
    t = { seqStep b with inputs := t.inputs } ∨ t.phyOut = b.phyOut := by
  cases k with
  | seq h => exact .inl h
  | quiet h _ => exact .inr (by rw [h])
  | clock ms _ _ h => exact .inr (by rw [h])
  | reset _ h => exact .inr (by rw [h]; rfl)
  | command i _ h =>
    obtain ⟨v, hv, -⟩ := commandWrite_frame i b
    exact .inr (by rw [h, hv])
  | illegal c h => exact .inr (by rw [h, illegalCommand_frame])
  | operand a v h =>
    obtain ⟨w, hw⟩ := writeOperand_frame a v b
    exact .inr (by rw [h, hw])
  | request i _ e h =>
    obtain ⟨v, hv, -⟩ := request_frame (encode i) e b
    exact .inr (by rw [h, hv])

/-- Settles O43: only a SEQ step changes what was handed to the PHY (`StepKind.phyOut`), and of SEQ's phases
only TX_WRITE and WAKE_PULSE (`seqStep_phyOut`). What TX_WRITE writes is the content of FBUF, and by the
invariant that is the frame of 0xF4 and the payload. -/
theorem wireOutputOnlyWholeFramesAndPulses : Obligations.WireOutputOnlyWholeFramesAndPulses := by
  intro s t hinv hs hne
  obtain ⟨-, b, hb, k⟩ := step_cases hs
  have hphase : b.phase = s.phase := by rw [hb]
  have hout : b.phyOut = s.phyOut := by rw [hb]
  have htiming : b.timing = s.timing := by rw [hb]
  rcases k.phyOut with ht | hsame
  · rw [← hout, ← htiming, ← hphase]
    by_cases hwrite : b.phase = phaseTxWrite
    · have hframe : frameBytes b = frame 0xF4#8 (payload s) := calc
        frameBytes b = frameBytes s := frameBytes_congr (by rw [hb]) (by rw [hb]) (by rw [hb])
        _ = frame 0xF4#8 (payload s) := (hinv.tx_frame (by rw [transacting, ← hphase, hwrite]; decide)).2
      rw [ht, seqStep_txWrite hwrite, ← hframe]
      exact ⟨rfl, .inl ⟨hwrite, rfl, rfl⟩⟩
    · by_cases hpulse : b.phase = phaseWakePulse
      · rw [ht, seqStep_wakePulse hpulse]
        exact ⟨rfl, .inr ⟨hpulse, rfl, rfl⟩⟩
      · have hkept : t.phyOut = b.phyOut := by rw [ht]; exact seqStep_phyOut hwrite hpulse
        exact absurd (hkept.trans hout) hne
  · exact absurd (hsame.trans hout) hne

end Sys2Proof.Machine
end

section
/-! PROOFS. The framer: what the checks of a frame mean, what they say of the frames the block builds and of frames
with changed bits, and the commands ENCODE and VALIDATE (O20 to O25). -/

namespace Sys2Proof.Machine

/-! ### The checks, FERR and the verdict -/

theorem countCheck_iff (f : List Byte) (e : Nat) : countCheck f e = true ↔ f.length = e + 3 :=
  beq_iff_eq

theorem addressCheck_iff (f : List Byte) : addressCheck f = true ↔ f[0]? = some 0x4F#8 := by
  cases f with
  | nil => simp [addressCheck]
  | cons a f => simp [addressCheck, show Config.addrIn = 0x4F#8 from rfl]

theorem lengthCheck_iff (f : List Byte) :
    lengthCheck f = true ↔ ∃ l, f[1]? = some l ∧ l.toNat + 2 = f.length := by
  match f with
  | [] => simp [lengthCheck]
  | [_] => simp [lengthCheck]
  | _ :: l :: rest => simp [lengthCheck]

/-- The checksum check in R173's words: the last byte is the XOR of those before it. (`checksumCheck_iff` says it as
a sum of all the bytes.) -/
theorem checksumCheck_iff_last (f : List Byte) :
    checksumCheck f = true ↔
      1 ≤ f.length ∧ f[f.length - 1]? = some (xorFold (f.take (f.length - 1))) := by
  cases f using List.reverseRecOn with
  | nil => simp [checksumCheck]
  | append_singleton f c => simp [checksumCheck]

/-- Each code of FERR says that its check fails and those before it hold (R173). -/
theorem firstError_iff (count addr len csum : Bool) :
    (firstError count addr len csum = ferrCount ↔ count = false) ∧
    (firstError count addr len csum = ferrAddress ↔ count = true ∧ addr = false) ∧
    (firstError count addr len csum = ferrLength ↔ count = true ∧ addr = true ∧ len = false) ∧
    (firstError count addr len csum = ferrChecksum ↔
      count = true ∧ addr = true ∧ len = true ∧ csum = false) ∧
    (firstError count addr len csum = ferrNone ↔
      count = true ∧ addr = true ∧ len = true ∧ csum = true) := by
  revert count addr len csum
  decide

theorem Checks.ok_iff (c : Checks) :
    c.ok = true ↔ c.countOk = true ∧ c.addrOk = true ∧ c.lenOk = true ∧ c.csumOk = true := by
  simp only [Checks.ok, Bool.and_eq_true, and_assoc]

/-- Settles O20: the meaning of each check, and FERR by its codes. -/
theorem frameChecksMeanTheRule : Obligations.FrameChecksMeanTheRule := by
  intro f e
  have hok := Checks.ok_iff (checkFrame f e)
  obtain ⟨hcount, haddr, hlen, hcsum, hnone⟩ :=
    firstError_iff (countCheck f e) (addressCheck f) (lengthCheck f) (checksumCheck f)
  exact ⟨countCheck_iff f e, addressCheck_iff f, lengthCheck_iff f, checksumCheck_iff_last f,
    hcount, haddr, hlen, hcsum, hnone.trans hok.symm, hok⟩

/-! ### Frames the block builds -/

theorem frame_ne_nil (a : Byte) (p : List Byte) : frame a p ≠ [] := List.cons_ne_nil _ _

theorem addressCheck_frame (a : Byte) (p : List Byte) :
    addressCheck (frame a p) = (a == Config.addrIn) := rfl

theorem lengthCheck_frame (a : Byte) {p : List Byte} (h : p.length ≤ 254) :
    lengthCheck (frame a p) = true :=
  (lengthCheck_iff _).2 ⟨lengthByte p.length, rfl, by rw [lengthByte_toNat h, frame_length]⟩

theorem checksumCheck_frame (a : Byte) (p : List Byte) : checksumCheck (frame a p) = true :=
  (checksumCheck_iff _ (frame_ne_nil a p)).2 (xorFold_frame a p)

/-- A frame passes its count, length and checksum checks whatever its address is. -/
theorem checkFrame_frame (a : Byte) {p : List Byte} (h : p.length ≤ 254) :
    checkFrame (frame a p) p.length =
      { countOk := true, addrOk := a == Config.addrIn, lenOk := true, csumOk := true,
        ferr := firstError true (a == Config.addrIn) true true } := by
  have hcount : countCheck (frame a p) p.length = true := (countCheck_iff _ _).2 (frame_length a p)
  rw [checkFrame, hcount, addressCheck_frame, lengthCheck_frame a h, checksumCheck_frame]

/-- Settles O21: only the address check tells the two frames apart. -/
theorem frameRoundTrip : Obligations.FrameRoundTrip := by
  intro p hp
  rw [checkFrame_frame _ hp, checkFrame_frame _ hp]
  exact ⟨rfl, List.take_left, rfl, rfl⟩

/-! ### Frames with changed bits -/

/-- Flipping bits of one byte flips them in the XOR. -/
theorem xorFold_flip (s : List Byte) (j : Nat) (h : j < s.length) (d : Byte) :
    xorFold (s.set j (s[j] ^^^ d)) = xorFold s ^^^ d := by
  rw [xorFold_set s j h, BitVec.xor_assoc, ← BitVec.xor_assoc s[j], BitVec.xor_self, BitVec.zero_xor]

theorem twoPow_ne_zero {w k : Nat} (h : k < w) : BitVec.twoPow w k ≠ 0#w := fun hc => by
  have hk := congrArg (fun x => x.getLsbD k) hc
  simp [h] at hk

/-- Settles O22: the XOR of a frame is 0x00, so after the change it is the changed bit. -/
theorem singleBitFlipFailsChecksum : Obligations.SingleBitFlipFailsChecksum := by
  intro a p e j k h _ hk
  have hbytes := mt (List.set_eq_nil_iff j ((frame a p)[j] ^^^ BitVec.twoPow 8 k)).1 (frame_ne_nil a p)
  rw [checkFrame_csumOk, ← Bool.not_eq_true, checksumCheck_iff _ hbytes, xorFold_flip, xorFold_frame,
    BitVec.zero_xor]
  exact twoPow_ne_zero hk

/-- Settles O23: the two changes cancel in the XOR. -/
theorem sameBitOfTwoBytesPassesChecksum : Obligations.SameBitOfTwoBytesPassesChecksum := by
  intro a p e i j k hi hj _ _ hne
  have hkept : (frame a p)[j] =
      ((frame a p).set i ((frame a p)[i] ^^^ BitVec.twoPow 8 k))[j]'(by rwa [List.length_set]) :=
    (List.getElem_set_ne hne _).symm
  rw [checkFrame_csumOk,
    checksumCheck_iff _ (mt (List.set_eq_nil_iff _ _).1 (mt (List.set_eq_nil_iff _ _).1 (frame_ne_nil a p))),
    hkept, xorFold_flip, xorFold_flip, xorFold_frame, BitVec.zero_xor, BitVec.xor_self]

/-! ### ENCODE and VALIDATE -/

/-- A command that ends in its accept step leaves the phase of an idle block as it was. -/
theorem finish_idle {s : State} (h : s.phase = phaseIdle) (r : BitVec 3) :
    finish r s = { s with res := r, done := true } := by
  rw [finish, ← h]

theorem encodeAccept_idle {s : State} (h : s.phase = phaseIdle) :
    encodeAccept s = { s with mem := (buildFrame s.addr s).mem, flen := (buildFrame s.addr s).flen,
                              res := resOk, done := true } :=
  (congrArg (finish resOk) (buildFrame_eq s.addr s)).trans
    (finish_idle (s := { s with mem := (buildFrame s.addr s).mem, flen := (buildFrame s.addr s).flen }) h resOk)

theorem validateAccept_idle {s : State} (h : s.phase = phaseIdle) :
    validateAccept s = { s with
      checks := checkFrame (frameBytes s) (expectedLength s)
      res := validationResult (checkFrame (frameBytes s) (expectedLength s))
      done := true } :=
  finish_idle (s := { s with checks := checkFrame (frameBytes s) (expectedLength s) }) h _

/-- Settles O24: ENCODE is accepted, and `buildFrame_spec` says what it builds. -/
theorem encodeBuildsFrame : Obligations.EncodeBuildsFrame := by
  intro s hb hn
  have hpay : payload (clearResults { s with lastOp := 1#4 }) = payload s := payload_congr rfl rfl rfl
  obtain ⟨hframe, hflen, -, hout⟩ := buildFrame_spec s.addr (clearResults { s with lastOp := 1#4 }) hn
  refine ⟨encodeAccept (clearResults { s with lastOp := 1#4 }),
    congrArg _ (acceptCommand_accepted hb ((encodeLegal_iff s).2 hn)), ?_, hflen,
    encodeAccept_idle (busy_eq_false.1 hb), hout⟩
  rw [← hpay, ← hframe]
  exact frameBytes_congr rfl rfl rfl

/-- Settles O25: VALIDATE is accepted, and what acceptance clears is none of the bytes it validates. -/
theorem validateReportsChecks : Obligations.ValidateReportsChecks := by
  intro s hb he hf
  have hraw : frameBytes (clearResults { s with lastOp := 2#4 }) = frameBytes s := frameBytes_congr rfl rfl rfl
  have hphase : (clearResults { s with lastOp := 2#4 }).phase = phaseIdle := busy_eq_false.1 hb
  refine congrArg _ ((acceptCommand_accepted hb ((validateLegal_iff s).2 ⟨he, hf⟩)).trans ?_)
  rw [validateAccept_idle hphase, hraw]
  rfl

end Sys2Proof.Machine
end

section
/-! PROOFS. The wake sequencer: the gate of ENSURE_AWAKE and its four phases (O26, O27). -/

namespace Sys2Proof.Machine

/-! ### The gate -/

theorem withinHoldoff_iff (s : State) :
    withinHoldoff s = true ↔ s.liveValid = true ∧ elapsed s s.liveTs ≤ s.timing.holdoffMs :=
  Bool.and_eq_true_iff.trans (and_congr_right fun _ => decide_eq_true_iff)

theorem withinHoldoff_eq_false (s : State) :
    withinHoldoff s = false ↔ s.liveValid = false ∨ s.timing.holdoffMs < elapsed s s.liveTs := by
  rw [← Bool.not_eq_true, withinHoldoff_iff, Decidable.not_and_iff_or_not, Bool.not_eq_true, Nat.not_le]

theorem ensureAwakeAccept_within {s : State} (hp : s.phase = phaseIdle) (h : withinHoldoff s = true) :
    ensureAwakeAccept s = { s with woke := false, res := resOk, done := true } :=
  (if_pos h).trans (finish_idle (s := { s with woke := false }) hp resOk)

theorem ensureAwakeAccept_past {s : State} (h : withinHoldoff s = false) :
    ensureAwakeAccept s = { s with woke := true, phase := phaseWakeDrain } :=
  if_neg (ne_true_of_eq_false h)

/-- ENSURE_AWAKE written while IDLE is accepted: it has no operand to refuse. -/
theorem exec_ensureAwake_idle {s : State} (hb : s.busy = false) :
    exec .ensureAwake s = .next (ensureAwakeAccept (clearResults { s with lastOp := 3#4 })) :=
  congrArg _ (acceptCommand_accepted hb rfl)

/-- Settles O26: acceptance changes nothing the gate reads, so the gate of `s` decides. -/
theorem ensureAwakeGate : Obligations.EnsureAwakeGate := by
  refine ⟨fun s hb hv he => (exec_ensureAwake_idle hb).trans (congrArg _ ?_),
    fun s hb hpast => (exec_ensureAwake_idle hb).trans (congrArg _ ?_)⟩
  · have hidle : (clearResults { s with lastOp := 3#4 }).phase = phaseIdle := busy_eq_false.1 hb
    exact ensureAwakeAccept_within hidle ((withinHoldoff_iff s).2 ⟨hv, he⟩)
  · have hgate : withinHoldoff (clearResults { s with lastOp := 3#4 }) = false :=
      (withinHoldoff_eq_false s).2 hpast
    exact ensureAwakeAccept_past hgate

/-! ### The four phases -/

/-- A byte ends the wait without a look at the deadline, and only that byte is taken. -/
theorem wakeWaitStep_byte {s : State} {b : Byte} {rest : List Byte} (hq : s.rxq = b :: rest) :
    wakeWaitStep s = { s with rxq := rest, res := resOk, done := true, phase := phaseIdle } := by
  simp only [wakeWaitStep, hq, rxTake, finish, List.drop_succ_cons, List.drop_zero]

theorem wakeWaitStep_empty {s : State} (hq : s.rxq = []) :
    wakeWaitStep s = if s.timing.tWakeMs ≤ elapsed s s.t0 then finish resOk s else s := by
  simp only [wakeWaitStep, hq]

/-- Settles O27, one clause per phase; WAKE_WAIT by whether a byte is queued. -/
theorem wakePhasesStep : Obligations.WakePhasesStep := by
  refine ⟨fun s hdrain => ?_, fun s hpulse => ?_, fun s hhold => ?_, fun s b rest hwait hq => ?_,
    fun s hwait hq => ?_⟩
  · exact seqStep_wakeDrain hdrain
  · exact seqStep_wakePulse hpulse
  · exact seqStep_wakeHold hhold
  · exact (seqStep_wakeWait hwait).trans (wakeWaitStep_byte hq)
  · exact (seqStep_wakeWait hwait).trans (wakeWaitStep_empty hq)

end Sys2Proof.Machine
end

section
/-! PROOFS. The request/response engine: DRAIN, TRANSACT's acceptance, its transmit phases, the echo detector, the
reply capture and the ends of the waits (O28 to O34, O41). -/

namespace Sys2Proof.Machine

/-! ### DRAIN, and TRANSACT up to ECHO_WAIT -/

theorem drainAccept_idle {s : State} (h : s.phase = phaseIdle) :
    drainAccept s = { s with rxq := [], res := resOk, done := true } :=
  finish_idle (s := { s with rxq := [] }) h resOk

/-- Settles O28: DRAIN has no operand to refuse, and its accept step leaves the idle phase as it was. -/
theorem drainEmptiesReceiveQueue : Obligations.DrainEmptiesReceiveQueue := by
  intro s hb
  have hidle : (clearResults { s with lastOp := 5#4 }).phase = phaseIdle := busy_eq_false.1 hb
  exact congrArg _ ((acceptCommand_accepted hb rfl).trans (drainAccept_idle hidle))

/-- Settles O29: with both lengths in range TRANSACT is accepted (`writeTransact_accepted`). -/
theorem transactBuildsClientFrame : Obligations.TransactBuildsClientFrame := by
  intro s hb hn he
  obtain ⟨-, hframe, hflen, heq, hout⟩ := writeTransact_accepted hb ((transactLegal_iff s).2 ⟨hn, he⟩)
  exact ⟨writeTransact s, rfl, hframe, hflen, heq, hout⟩

/-- Settles O30: each phase has its own step. -/
theorem transmitPhasesStep : Obligations.TransmitPhasesStep :=
  ⟨fun _ hdrain => seqStep_txDrain hdrain, fun _ hwrite => seqStep_txWrite hwrite,
    fun _ hflush => seqStep_txFlush hflush⟩

/-! ### The echo detector -/

/-- After this step's bytes the frame is fully echoed exactly if no byte is missing any more. -/
theorem echoConsume_complete_iff (s : State) :
    (echoConsume s).ecount = (echoConsume s).flen ↔ s.ecount.toNat + echoTake s = s.flen.toNat := by
  rw [← BitVec.toNat_inj, echoConsume_ecount]
  rfl

/-- The frame is fully echoed: EDIFF gives the verdict (R227). -/
theorem echoWaitStep_complete {s : State} (h : s.ecount.toNat + echoTake s = s.flen.toNat) :
    echoWaitStep s = if s.echo.ediff || echoDiffers s then finish resEchoMismatch (echoConsume s)
      else { echoConsume s with t0 := s.now, phase := phaseReplyWait } :=
  if_pos ((echoConsume_complete_iff s).2 h)

/-- Bytes are missing: the deadline gives the verdict (R227). -/
theorem echoWaitStep_incomplete {s : State} (h : s.ecount.toNat + echoTake s ≠ s.flen.toNat) :
    echoWaitStep s = if s.timing.tEchoMs ≤ elapsed s s.t0 then
        finish resEchoMismatch { echoConsume s with echo := { (echoConsume s).echo with eshort := true } }
      else echoConsume s :=
  if_neg (mt (echoConsume_complete_iff s).1 h)

/-- Settles O31: whether the frame is fully echoed, then EDIFF or the deadline (`echoWaitStep_complete`,
`echoWaitStep_incomplete`). -/
theorem echoDetectorStep : Obligations.EchoDetectorStep := by
  intro s k differs hp hk hd
  subst hk
  have hdiffers : (s.echo.ediff || echoDiffers s) = differs := by
    rw [Bool.eq_iff_iff, hd, Bool.or_eq_true, echoDiffers_iff]
    rfl
  rw [seqStep_echoWait hp]
  split
  · rename_i hall
    have hcount : (echoConsume s).ecount = s.flen := (echoConsume_complete_iff s).2 hall
    have htaken : echoConsume s = { s with
        rxq := s.rxq.drop (echoTake s), ecount := (echoConsume s).ecount
        echo := { s.echo with ediff := s.echo.ediff || echoDiffers s } } := rfl
    rw [hcount, hdiffers] at htaken
    rw [echoWaitStep_complete hall, hdiffers, htaken]
    cases differs
    · have hsame : { s.echo with ediff := false } = s.echo := by
        rw [← (Bool.or_eq_false_iff.1 hdiffers).1]
      rw [hsame]
      rfl
    · rfl
  · rename_i hsome
    rw [echoWaitStep_incomplete hsome, ← hdiffers]
    rfl

/-! ### The reply capture -/

/-- The reply count after a step's bytes, before any wrap. -/
theorem replyConsume_rcount (s : State) : (replyConsume s).rcount.toNat = s.rcount.toNat + replyTake s := by
  have hcount := s.rcount.isLt
  have hexpected : expectedLength s < 256 := s.explen.isLt
  have htake : replyTake s ≤ expectedLength s + 3 - s.rcount.toNat := Nat.min_le_right _ _
  show (BitVec.ofNat 9 _).toNat = _
  rw [BitVec.toNat_ofNat]
  omega

/-- The reply is complete after this step's bytes exactly if none is missing any more. -/
theorem replyConsume_complete_iff (s : State) :
    (replyConsume s).rcount.toNat = replyLength (replyConsume s) ↔
      s.rcount.toNat + replyTake s = replyLength s := by
  rw [replyConsume_rcount, replyConsume_eq]
  rfl

/-- The reply is complete: it is validated (R230). -/
theorem replyWaitStep_complete {s : State} (h : s.rcount.toNat + replyTake s = replyLength s) :
    replyWaitStep s = replyValidate (replyConsume s) :=
  if_pos ((replyConsume_complete_iff s).2 h)

/-- Bytes are missing: the deadline gives the verdict (R229). -/
theorem replyWaitStep_incomplete {s : State} (h : s.rcount.toNat + replyTake s ≠ replyLength s) :
    replyWaitStep s = if s.timing.tReplyMs ≤ elapsed s s.t0 then finish resReplyTimeout (replyConsume s)
      else replyConsume s := by
  refine (if_neg (mt (replyConsume_complete_iff s).1 h)).trans ?_
  rw [replyConsume_eq]
  rfl

/-- The verdict on a reply changes neither the count of its bytes nor the model's `epoch`. -/
theorem replyVerdict_rcount_epoch (s : State) :
    (replyVerdict s).rcount = s.rcount ∧ (replyVerdict s).epoch = s.epoch := by
  unfold replyVerdict
  split
  · unfold replyValidate
    split <;> exact ⟨rfl, rfl⟩
  · split <;> exact ⟨rfl, rfl⟩

/-- The verdict on a reply leaves every buffer byte alone. -/
theorem readBuffer_replyWaitStep (s : State) (a : Nat) :
    readBuffer (replyWaitStep s) a = readBuffer (replyConsume s) a :=
  readBuffer_congr (replyVerdict_mem _) (replyVerdict_rcount_epoch _).2 a

/-- What one step of the reply capture leaves in RBUF and RCOUNT, whatever its verdict (R229). -/
theorem replyWaitStep_captures {s : State} (he : expectedLength s ≤ 254) (hr : s.rcount.toNat ≤ replyLength s) :
    readBytes (replyWaitStep s) rbufBase (s.rcount.toNat + replyTake s) =
      readBytes s rbufBase s.rcount.toNat ++ s.rxq.take (replyTake s) ∧
    (∀ a, outside (rbufBase + s.rcount.toNat) (replyTake s) a →
      readBuffer (replyWaitStep s) a = readBuffer s a) ∧
    (replyWaitStep s).rcount.toNat = s.rcount.toNat + replyTake s := by
  obtain ⟨-, hcount, hbytes, hout⟩ := replyConsume_spec s _ he rfl hr
  refine ⟨?_, fun a ha => (readBuffer_replyWaitStep s a).trans (hout a ha), ?_⟩
  · rw [← hbytes]
    exact readBytes_congr (fun i _ => readBuffer_replyWaitStep s _)
  · rw [← hcount]
    exact congrArg BitVec.toNat (replyVerdict_rcount_epoch _).1

/-- Settles O32: fewer bytes are present than are missing, so all of them are taken. -/
theorem partialReplyStep : Obligations.PartialReplyStep := by
  intro s hp he hlt
  have htake : replyTake s = s.rxq.length := Nat.min_eq_left (by omega)
  obtain ⟨hbytes, hout, hcount⟩ := replyWaitStep_captures he (by omega)
  have htaken := replyConsume_eq s
  rw [htake, List.take_length] at hbytes
  rw [htake] at hout hcount
  rw [htake, List.drop_length] at htaken
  refine ⟨replyWaitStep s, seqStep_replyWait hp, hbytes, hout, hcount, ?_⟩
  rw [replyWaitStep_incomplete (by omega)]
  generalize replyConsume s = w at htaken
  split
  · rw [htaken]; rfl
  · rw [htaken]

theorem replyValidate_checks (s : State) :
    (replyValidate s).checks = checkFrame (replyBytes s) (expectedLength s) := by
  unfold replyValidate
  split <;> rfl

/-- Settles O33: exactly the missing bytes are taken, and the reply is validated. -/
theorem completeReplyStep : Obligations.CompleteReplyStep := by
  intro s k hp he hk hle
  have htake : replyTake s = k := by
    unfold replyTake
    omega
  obtain ⟨hbytes, hout, hcount⟩ := replyWaitStep_captures he (by omega)
  have htaken := replyConsume_eq s
  rw [htake] at hbytes hout hcount htaken
  rw [hk] at hbytes hcount
  refine ⟨replyWaitStep s, seqStep_replyWait hp, hbytes, hout, hcount, ?_⟩
  have hread : readBytes (replyWaitStep s) rbufBase (replyLength s) = replyBytes (replyConsume s) := by
    rw [readBytes_congr (fun i _ => readBuffer_replyWaitStep s _), replyBytes, htaken]
    rfl
  rw [hread, replyWaitStep_complete (by omega)]
  generalize replyConsume s = w at htaken
  refine ⟨by rw [replyValidate_checks, htaken]; rfl, ?_⟩
  split
  · rename_i hok
    rw [replyValidate_checks] at hok
    rw [replyValidate, if_pos hok, htaken]
    rfl
  · rename_i hbad
    rw [replyValidate_checks] at hbad
    rw [replyValidate, if_neg hbad, htaken]
    rfl

/-! ### The ends of the waits -/

/-- A wait that finishes at its deadline and before it stays in a phase that is not IDLE is over exactly at the
deadline. -/
theorem wait_ends_iff {c : Prop} [Decidable c] {r : BitVec 3} {u v : State} (h : v.phase ≠ phaseIdle) :
    (if c then finish r u else v).phase = phaseIdle ↔ c := by
  split
  · exact iff_of_true rfl ‹_›
  · exact iff_of_false h ‹_›

/-- Settles O34: without its bytes each wait is decided by its deadline alone. -/
theorem waitsEndAtTheDeadline : Obligations.WaitsEndAtTheDeadline := by
  refine fun s => ⟨fun hp hq => ?_, fun hp hlt => ?_, fun hp hlt => ?_⟩
  · rw [seqStep_wakeWait hp, wakeWaitStep_empty hq]
    exact wait_ends_iff (by rw [hp]; decide)
  · have htake := echoTake_le s
    rw [seqStep_echoWait hp, echoWaitStep_incomplete (by omega)]
    exact wait_ends_iff (by rw [show (echoConsume s).phase = s.phase from rfl, hp]; decide)
  · have htake := replyTake_le s
    rw [seqStep_replyWait hp, replyWaitStep_incomplete (by omega)]
    exact wait_ends_iff (by rw [replyConsume_eq, hp]; decide)

/-! ### The way into REPLY_WAIT -/

/-- Only the echo of the whole frame with no byte different leads from ECHO_WAIT to REPLY_WAIT (R227). -/
theorem echoWaitStep_enters {s : State} (hp : s.phase = phaseEchoWait)
    (h : (echoWaitStep s).phase = phaseReplyWait) :
    (echoWaitStep s).ecount = (echoWaitStep s).flen ∧ (echoWaitStep s).echo.ediff = false := by
  by_cases hall : s.ecount.toNat + echoTake s = s.flen.toNat
  · have hcount := (echoConsume_complete_iff s).2 hall
    rw [echoWaitStep_complete hall] at h ⊢
    split at h
    · cases h
    · rename_i hsame
      rw [if_neg hsame]
      exact ⟨hcount, Bool.eq_false_of_not_eq_true hsame⟩
  · rw [echoWaitStep_incomplete hall] at h
    split at h
    · cases h
    · cases hp.symm.trans h

/-- SEQ enters REPLY_WAIT from ECHO_WAIT only (R238). -/
theorem seqStep_enters_replyWait {s : State} (hp : s.phase ≠ phaseReplyWait)
    (h : (seqStep s).phase = phaseReplyWait) : s.phase = phaseEchoWait := by
  rcases phase_cases s.phase with hs | hs | hs | hs | hs | hs | hs | hs | hs | hs | hs
  · rw [seqStep_idle hs] at h; exact absurd h hp
  · rw [seqStep_wakeDrain hs] at h; cases h
  · rw [seqStep_wakePulse hs] at h; cases h
  · rw [seqStep_wakeHold hs, wakeHoldStep] at h
    split at h
    · cases h
    · exact absurd h hp
  · rw [seqStep_wakeWait hs, wakeWaitStep] at h
    split at h
    · cases h
    · split at h
      · cases h
      · exact absurd h hp
  · rw [seqStep_txDrain hs] at h; cases h
  · rw [seqStep_txWrite hs] at h; cases h
  · rw [seqStep_txFlush hs, txFlushStep] at h
    split at h
    · cases h
    · exact absurd h hp
  · exact hs
  · exact absurd hs hp
  · rw [seqStep_reserved hs] at h; exact absurd h hp

/-- Settles O41: a step from IDLE never ends in a wait (`step_idle`); while BUSY only SEQ changes the phase to another
wait (`step_busy`), and of its phases only ECHO_WAIT leads to REPLY_WAIT, by echo success (`echoWaitStep_enters`). -/
theorem replyWaitOnlyAfterEchoSuccess : Obligations.ReplyWaitOnlyAfterEchoSuccess := by
  intro s t hs hp ht
  cases hb : s.busy
  · rcases step_idle hs hb with h | h | h <;> cases ht.symm.trans h
  · rcases step_busy hs hb with ⟨-, rest, he⟩ | ⟨-, b, hbs, he⟩ | ⟨-, he⟩
    · rw [he] at ht
      cases ht
    · have hphase : b.phase = s.phase := by rw [hbs]
      rw [← hphase] at hp ⊢
      rw [he] at ht ⊢
      have hecho := seqStep_enters_replyWait hp ht
      simp only [seqStep_echoWait hecho] at ht ⊢
      exact ⟨hecho, echoWaitStep_enters hecho ht⟩
    · rw [he] at ht
      exact absurd ht hp

end Sys2Proof.Machine
end

section
/-! PROOFS. ADDR is read by ENCODE alone: TRANSACT and every step of SEQ go on as if it held any other byte
(O35). -/

namespace Sys2Proof.Machine

/-- The state with another byte in ADDR. -/
def setAddr (v : Byte) (s : State) : State := { s with addr := v }

/-- `f` neither reads nor writes ADDR. -/
def IgnoresAddr (f : State → State) : Prop := ∀ (s : State) (v : Byte), f (setAddr v s) = setAddr v (f s)

theorem IgnoresAddr.comp {f g : State → State} (hf : IgnoresAddr f) (hg : IgnoresAddr g) :
    IgnoresAddr (fun s => f (g s)) := fun s v => (congrArg f (hg s v)).trans (hf (g s) v)

theorem IgnoresAddr.ite {c : State → Prop} [DecidablePred c] {f g : State → State}
    (hc : ∀ (s : State) (v : Byte), c (setAddr v s) ↔ c s) (hf : IgnoresAddr f) (hg : IgnoresAddr g) :
    IgnoresAddr (fun s => if c s then f s else g s) := fun s v => by
  by_cases h : c s
  · simp only [if_pos ((hc s v).2 h), if_pos h, hf s v]
  · simp only [if_neg (mt (hc s v).1 h), if_neg h, hg s v]

theorem ignoresAddr_id : IgnoresAddr (fun s => s) := fun _ _ => rfl

theorem ignoresAddr_finish (r : BitVec 3) : IgnoresAddr (finish r) := fun _ _ => rfl

/-! ### The buffers -/

theorem readBytes_setAddr (s : State) (v : Byte) (a n : Nat) :
    readBytes (setAddr v s) a n = readBytes s a n :=
  readBytes_of_mem (s := s) (t := setAddr v s) rfl rfl a n

theorem ignoresAddr_writeBuffer (a : Nat) (b : Byte) : IgnoresAddr (fun s => writeBuffer s a b) :=
  .ite (c := fun _ => isBuffer a = true) (fun _ _ => .rfl) (fun _ _ => rfl) ignoresAddr_id

theorem ignoresAddr_writeBytes (a : Nat) (bs : List Byte) : IgnoresAddr (fun s => writeBytes s a bs) := by
  induction bs generalizing a with
  | nil => exact ignoresAddr_id
  | cons b bs ih => exact (ih (a + 1)).comp (ignoresAddr_writeBuffer a b)

/-- TRANSACT's frame is built of PBUF and the fixed address (R223). -/
theorem ignoresAddr_buildFrame (a : Byte) : IgnoresAddr (buildFrame a) := fun s v => by
  have hpay : payload (setAddr v s) = payload s := readBytes_setAddr s v _ _
  rw [buildFrame, hpay]
  exact congrArg (fun u : State => { u with flen := BitVec.ofNat 9 (payloadLength s + 3) })
    (ignoresAddr_writeBytes fbufBase (frame a (payload s)) s v)

/-! ### Acceptance -/

theorem ignoresAddr_writeTransact : IgnoresAddr writeTransact := by
  have hphase : IgnoresAddr (fun s => { s with phase := phaseTxDrain }) := fun _ _ => rfl
  have hclear : IgnoresAddr (fun s => clearResults { s with lastOp := 0x4#4 }) := fun _ _ => rfl
  have haccept : IgnoresAddr (fun s => transactAccept (clearResults { s with lastOp := 0x4#4 })) :=
    hphase.comp ((ignoresAddr_buildFrame Config.addrOut).comp hclear)
  exact .ite (fun _ _ => .rfl) (fun _ _ => rfl) (.ite (fun _ _ => .rfl) haccept (fun _ _ => rfl))

/-! ### SEQ -/

theorem ignoresAddr_wakeWaitStep : IgnoresAddr wakeWaitStep := fun s v => by
  cases hq : s.rxq with
  | nil =>
    rw [wakeWaitStep_empty hq, wakeWaitStep_empty (s := setAddr v s) hq]
    exact IgnoresAddr.ite (c := fun s => s.timing.tWakeMs ≤ elapsed s s.t0) (fun _ _ => .rfl)
      (ignoresAddr_finish resOk) ignoresAddr_id s v
  | cons b rest =>
    rw [wakeWaitStep_byte hq, wakeWaitStep_byte (s := setAddr v s) hq]
    rfl

theorem ignoresAddr_txWriteStep : IgnoresAddr txWriteStep := fun s v => by
  have hframe : frameBytes (setAddr v s) = frameBytes s := readBytes_setAddr s v _ _
  rw [txWriteStep, hframe]
  rfl

theorem ignoresAddr_echoConsume : IgnoresAddr echoConsume := fun s v => by
  have hdiffers : echoDiffers (setAddr v s) = echoDiffers s :=
    congrArg (s.rxq.take (echoTake s) != ·) (readBytes_setAddr s v _ _)
  rw [echoConsume, hdiffers]
  rfl

theorem ignoresAddr_echoVerdict : IgnoresAddr echoVerdict :=
  .ite (fun _ _ => .rfl) (.ite (fun _ _ => .rfl) (ignoresAddr_finish _) (fun _ _ => rfl))
    (.ite (fun _ _ => .rfl) (fun _ _ => rfl) ignoresAddr_id)

theorem ignoresAddr_replyConsume : IgnoresAddr replyConsume := fun s v =>
  congrArg (fun u : State => { u with rcount := BitVec.ofNat 9 (s.rcount.toNat + replyTake s) })
    (ignoresAddr_writeBytes (rbufBase + s.rcount.toNat) (s.rxq.take (replyTake s)) (rxTake (replyTake s) s) v)

theorem ignoresAddr_replyValidate : IgnoresAddr replyValidate := fun s v => by
  have hchecks : checkFrame (replyBytes (setAddr v s)) (expectedLength (setAddr v s)) =
      checkFrame (replyBytes s) (expectedLength s) :=
    congrArg (checkFrame · (expectedLength s)) (readBytes_setAddr s v _ _)
  unfold replyValidate
  rw [hchecks]
  split <;> rfl

theorem ignoresAddr_replyVerdict : IgnoresAddr replyVerdict :=
  .ite (fun _ _ => .rfl) ignoresAddr_replyValidate
    (.ite (fun _ _ => .rfl) (ignoresAddr_finish _) ignoresAddr_id)

/-- SEQ: its phases in the order of `seqStep`'s tests. -/
theorem ignoresAddr_seqStep : IgnoresAddr seqStep :=
  .ite (fun _ _ => .rfl) (fun _ _ => rfl) <|
  .ite (fun _ _ => .rfl) (fun _ _ => rfl) <|
  .ite (fun _ _ => .rfl) (.ite (fun _ _ => .rfl) (fun _ _ => rfl) ignoresAddr_id) <|
  .ite (fun _ _ => .rfl) ignoresAddr_wakeWaitStep <|
  .ite (fun _ _ => .rfl) (fun _ _ => rfl) <|
  .ite (fun _ _ => .rfl) ignoresAddr_txWriteStep <|
  .ite (fun _ _ => .rfl) (.ite (fun _ _ => .rfl) (fun _ _ => rfl) ignoresAddr_id) <|
  .ite (fun _ _ => .rfl) (ignoresAddr_echoVerdict.comp ignoresAddr_echoConsume) <|
  .ite (fun _ _ => .rfl) (ignoresAddr_replyVerdict.comp ignoresAddr_replyConsume) ignoresAddr_id

/-- Settles O35: the parts of acceptance and of SEQ that read more than flags and counts read the buffers, and these
do not depend on ADDR (`readBytes_setAddr`). -/
theorem transactIgnoresAddr : Obligations.TransactIgnoresAddr := fun s v =>
  ⟨⟨writeTransact s, rfl, congrArg _ (ignoresAddr_writeTransact s v)⟩, ignoresAddr_seqStep s v⟩

end Sys2Proof.Machine
end

section
/-! PROOFS. A TRANSACT on a healthy wire, step by step: acceptance, the frame out and its echo back, the peer's
reply (O36). -/

namespace Sys2Proof.Machine

/-! ### Runs -/

/-- `k` steps of the machine, as the statements write them. -/
abbrev runSteps (k : Nat) (s : State) : Host.Outcome State Fault Refusal :=
  Host.Core.run { State := State, Fault := Fault, Refusal := Refusal, step := step, reset := State.reset } k s

/-- A run goes on from the state its first step answers. -/
theorem run_step {k : Nat} {s t : State} (h : step s = .next t) : runSteps (k + 1) s = runSteps k t := by
  simp only [runSteps, Host.Core.run, h]

/-- A run whose first event answers a next state. -/
theorem run_event {k : Nat} {s t : State} {e : Event} {rest : List Event} (hr : reservedFault s = none)
    (hs : s.inputs = e :: rest) (ht : runEvent e { s with inputs := rest } = .next t) :
    runSteps (k + 1) s = runSteps k t :=
  run_step ((step_event hr hs).trans ht)

theorem reservedFault_eq_none_iff (s : State) :
    reservedFault s = none ↔ s.phase.toNat ≤ 9 ∧ s.res.toNat ≤ 4 ∧ s.checks.ferr.toNat ≤ 4 := by
  unfold reservedFault
  split
  · exact iff_of_false nofun (by omega)
  · split
    · exact iff_of_false nofun (by omega)
    · split
      · exact iff_of_false nofun (by omega)
      · exact iff_of_true rfl (by omega)

/-- Another legal phase, with RES and CHECKS as they were, brings no reserved encoding. -/
theorem reservedFault_of_same {s t : State} (h : reservedFault s = none) (hr : t.res = s.res)
    (hc : t.checks = s.checks) (hp : t.phase.toNat ≤ 9) : reservedFault t = none := by
  obtain ⟨-, hres, hferr⟩ := (reservedFault_eq_none_iff s).1 h
  exact (reservedFault_eq_none_iff t).2 ⟨hp, hr ▸ hres, hc ▸ hferr⟩

/-! ### The frame out, its echo back -/

/-- From TX_DRAIN two steps of SEQ hand the frame to the PHY (R224, R225). -/
theorem run_sends {k : Nat} {s : State} {rest : List Event} (hr : reservedFault s = none) (hp : s.phase = phaseTxDrain)
    (hs : s.inputs = .seq :: .seq :: rest) :
    runSteps (k + 2) s = runSteps k { s with
      inputs := rest, rxq := [], phyOut := s.phyOut ++ [.bytes (frameBytes s)], txIdle := false,
      phase := phaseTxFlush } := by
  have hframe : frameBytes { s with inputs := rest, rxq := [], phase := phaseTxWrite } = frameBytes s :=
    frameBytes_congr rfl rfl rfl
  rw [← hframe]
  calc runSteps (k + 2) s
      = runSteps (k + 1) { s with inputs := .seq :: rest, rxq := [], phase := phaseTxWrite } :=
        run_event hr hs (congrArg Host.Outcome.next (seqStep_txDrain hp))
    _ = _ := run_event (reservedFault_of_same hr rfl rfl (show 6 ≤ 9 by decide)) rfl
        (congrArg Host.Outcome.next (seqStep_txWrite rfl))

/-- The whole frame echoed without a difference ends the wait on the echo with success (R227). -/
theorem seqStep_echoed {s : State} (hp : s.phase = phaseEchoWait) (hc : s.ecount = 0#9)
    (hd : s.echo.ediff = false) (hq : s.rxq = frameBytes s) :
    seqStep s = { s with rxq := [], ecount := s.flen, t0 := s.now, phase := phaseReplyWait } := by
  have hlen : s.rxq.length = s.flen.toNat := by rw [hq, frameBytes, readBytes_length]
  have htaken : s.flen.toNat = min s.rxq.length (s.flen.toNat - s.ecount.toNat) := by
    rw [hlen, hc]
    exact (Nat.min_self _).symm
  have hall : s.ecount.toNat + s.flen.toNat = s.flen.toNat := by
    rw [hc]
    exact Nat.zero_add _
  have hsame : ¬∃ j, j < s.flen.toNat ∧ s.rxq[j]? ≠ some (readBuffer s (fbufBase + s.ecount.toNat + j)) := by
    rintro ⟨j, hj, hne⟩
    rw [hq, hc, frameBytes, readBytes_getElem? _ _ _ _ hj] at hne
    exact hne rfl
  have hdiffers : false = true ↔ s.echo.ediff = true ∨
      ∃ j, j < s.flen.toNat ∧ s.rxq[j]? ≠ some (readBuffer s (fbufBase + s.ecount.toNat + j)) :=
    iff_of_false (by decide) (not_or.2 ⟨ne_true_of_eq_false hd, hsame⟩)
  rw [echoDetectorStep s s.flen.toNat false hp htaken hdiffers, if_pos hall, if_neg (by decide), ← hlen,
    List.drop_length]

/-- From TX_FLUSH the flush ends, the PHY loops the frame back, and the echo is found equal (R226, R227). -/
theorem run_echoed {k : Nat} {s : State} {f : List Byte} {rest : List Event} (hr : reservedFault s = none)
    (hp : s.phase = phaseTxFlush) (hq : s.rxq = []) (hc : s.ecount = 0#9) (hd : s.echo.ediff = false)
    (hf : frameBytes s = f) (hs : s.inputs = .txIdle true :: .rx f :: .seq :: .seq :: rest) :
    runSteps (k + 4) s = runSteps k { s with
      inputs := rest, txIdle := true, t0 := s.now, rxq := [], ecount := s.flen, phase := phaseReplyWait } := by
  subst hf
  have hframe : frameBytes { s with inputs := rest, txIdle := true, rxq := frameBytes s, t0 := s.now,
                                    phase := phaseEchoWait } = frameBytes s := frameBytes_congr rfl rfl rfl
  have hrx : phyAppend (frameBytes s) { s with inputs := .seq :: .seq :: rest, txIdle := true } =
      { s with inputs := .seq :: .seq :: rest, txIdle := true, rxq := frameBytes s } := by
    rw [phyAppend, hq]
    rfl
  calc runSteps (k + 4) s
      = runSteps (k + 3) { s with inputs := .rx (frameBytes s) :: .seq :: .seq :: rest, txIdle := true } :=
        run_event hr hs rfl
    _ = runSteps (k + 2) { s with inputs := .seq :: .seq :: rest, txIdle := true, rxq := frameBytes s } :=
        run_event hr rfl (congrArg Host.Outcome.next hrx)
    _ = runSteps (k + 1) { s with inputs := .seq :: rest, txIdle := true, rxq := frameBytes s,
                                  t0 := s.now, phase := phaseEchoWait } :=
        run_event hr rfl (congrArg Host.Outcome.next (seqStep_txFlush hp))
    _ = _ := run_event (reservedFault_of_same hr rfl rfl (show 8 ≤ 9 by decide)) rfl
        (congrArg Host.Outcome.next (seqStep_echoed rfl hc hd hframe.symm))

/-! ### The reply -/

/-- The reply payload is the part of the captured reply between its two header bytes and its checksum. -/
theorem replyPayload_eq (s : State) : replyPayload s = ((replyBytes s).drop 2).take (expectedLength s) := by
  rw [replyBytes, show replyLength s = 2 + (expectedLength s + 1) by rw [replyLength]; omega, readBytes_add,
    readBytes_add, List.drop_left' (readBytes_length _ _ _), List.take_left' (readBytes_length _ _ _), replyPayload]

/-- From REPLY_WAIT with nothing captured, the peer's frame of a payload of the expected length is taken whole and
validates (R229, R230). -/
theorem run_replied {s : State} {q : List Byte} (hr : reservedFault s = none) (hp : s.phase = phaseReplyWait)
    (he : expectedLength s ≤ 254) (hl : q.length = expectedLength s) (hq : s.rxq = []) (hc : s.rcount = 0#9)
    (hs : s.inputs = [.rx (frame 0x4F#8 q), .seq]) :
    ∃ t, runSteps 2 s = .next t ∧
      t = { s with inputs := [], mem := t.mem, rcount := t.rcount, checks := t.checks, liveTs := s.now,
                   liveValid := true, res := resOk, done := true, phase := phaseIdle } ∧
      checksByte t.checks = 0x0F#8 ∧ t.rcount.toNat = expectedLength s + 3 ∧ replyPayload t = q := by
  have hlen : (frame 0x4F#8 q).length = replyLength s := by rw [frame_length, hl]; rfl
  have hcount : s.rcount.toNat + (frame 0x4F#8 q).length = replyLength s := by
    rw [hc, hlen]
    exact Nat.zero_add _
  obtain ⟨t, hstep, hbytes, -, hrcount, hchecks, ht⟩ :=
    completeReplyStep { s with inputs := [], rxq := frame 0x4F#8 q } (frame 0x4F#8 q).length hp he hcount le_rfl
  have hrx : phyAppend (frame 0x4F#8 q) { s with inputs := [.seq] } =
      { s with inputs := [.seq], rxq := frame 0x4F#8 q } := by
    rw [phyAppend, hq]
    rfl
  have hread : readBytes t rbufBase (replyLength s) = frame 0x4F#8 q := by
    rw [List.take_length, hc] at hbytes
    exact hbytes
  have hvalid : t.checks = checkFrame (frame 0x4F#8 q) q.length := by
    rw [← hread, hl]
    exact hchecks
  rw [checkFrame_frame _ (by omega)] at hvalid
  rw [if_pos (by rw [hvalid]; rfl)] at ht
  refine ⟨t, ?_, ?_, by rw [hvalid]; rfl, hrcount, ?_⟩
  · calc runSteps 2 s
        = runSteps 1 { s with inputs := [.seq], rxq := frame 0x4F#8 q } :=
          run_event hr hs (congrArg Host.Outcome.next hrx)
      _ = runSteps 0 t := run_event hr rfl (congrArg Host.Outcome.next hstep)
  · rw [List.drop_length, ← hq] at ht
    exact ht
  · have hexplen : t.explen = s.explen := by rw [ht]
    have hreply : replyBytes t = frame 0x4F#8 q := by
      rw [replyBytes, replyLength, expectedLength, hexplen]
      exact hread
    rw [replyPayload_eq, hreply, expectedLength, hexplen, ← expectedLength, ← hl]
    exact List.take_left

/-! ### The whole TRANSACT -/

/-- The write of TRANSACT's command word builds the frame and enters TX_DRAIN (R43, R223). -/
theorem run_accepted {k : Nat} {s : State} {rest : List Event} (hr : reservedFault s = none) (hb : s.busy = false)
    (hn : payloadLength s ≤ 254) (he : expectedLength s ≤ 254) (hs : s.inputs = .write regCmd 0x04#8 :: rest) :
    ∃ t, runSteps (k + 1) s = runSteps k t ∧ reservedFault t = none ∧
      frameBytes t = frame 0xF4#8 (payload s) ∧ t.flen.toNat = payloadLength s + 3 ∧
      t = { s with inputs := rest, mem := t.mem, flen := t.flen, phase := phaseTxDrain, lastOp := 4#4,
                   done := false, cmdErr := false, checks := Checks.clear, echo := Echo.clear, ecount := 0#9,
                   rcount := 0#9 } := by
  obtain ⟨-, hres, -⟩ := (reservedFault_eq_none_iff s).1 hr
  obtain ⟨t, hexec, hframe, hflen, ht, -⟩ := transactBuildsClientFrame { s with inputs := rest } hb hn he
  have hrun : runEvent (.write regCmd 0x04#8) { s with inputs := rest } = .next t :=
    (clientWrite_command (c := 0x04#8) rfl _).trans hexec
  have hlegal : reservedFault t = none := by
    rw [ht]
    exact (reservedFault_eq_none_iff _).2 ⟨show 5 ≤ 9 by decide, hres, show 0 ≤ 4 by decide⟩
  have hpay : payload { s with inputs := rest } = payload s := payload_congr rfl rfl rfl
  exact ⟨t, run_event hr hs hrun, hlegal, hpay ▸ hframe, hflen, ht⟩

/-- From TX_DRAIN to REPLY_WAIT on a healthy wire: the frame goes out (`run_sends`) and comes back (`run_echoed`). -/
theorem run_sends_echoed {k : Nat} {s : State} {f : List Byte} {rest : List Event} (hr : reservedFault s = none)
    (hp : s.phase = phaseTxDrain) (hc : s.ecount = 0#9) (hd : s.echo.ediff = false) (hf : frameBytes s = f)
    (hs : s.inputs = .seq :: .seq :: .txIdle true :: .rx f :: .seq :: .seq :: rest) :
    runSteps (k + 6) s = runSteps k { s with
      inputs := rest, rxq := [], phyOut := s.phyOut ++ [.bytes f], txIdle := true, t0 := s.now,
      ecount := s.flen, phase := phaseReplyWait } := by
  rw [run_sends hr hp hs, hf]
  refine run_echoed (reservedFault_of_same hr rfl rfl (show 7 ≤ 9 by decide)) rfl rfl hc hd ?_ rfl
  exact Eq.trans (b := frameBytes s) (frameBytes_congr rfl rfl rfl) hf

/-- The nine events of a TRANSACT on a healthy wire: the acceptance (`run_accepted`), six up to the end of the echo
(`run_sends_echoed`), and two for the reply (`run_replied`). -/
theorem run_healthy {s : State} {p q : List Byte} (hr : reservedFault s = none) (hb : s.busy = false)
    (hn : payloadLength s ≤ 254) (he : expectedLength s ≤ 254) (hp : payload s = p)
    (hl : q.length = expectedLength s)
    (hs : s.inputs = [.write regCmd 0x04#8, .seq, .seq, .txIdle true, .rx (frame 0xF4#8 p), .seq, .seq,
      .rx (frame 0x4F#8 q), .seq]) :
    ∃ t, runSteps 9 s = .next t ∧
      t = { s with inputs := [], mem := t.mem, flen := t.flen, lastOp := 4#4, cmdErr := false, rxq := [],
                   phyOut := s.phyOut ++ [.bytes (frame 0xF4#8 p)], txIdle := true, t0 := s.now,
                   echo := Echo.clear, ecount := t.flen, rcount := t.rcount, checks := t.checks,
                   liveTs := s.now, liveValid := true, res := resOk, done := true, phase := phaseIdle } ∧
      checksByte t.checks = 0x0F#8 ∧ t.flen.toNat = payloadLength s + 3 ∧
      t.rcount.toNat = expectedLength s + 3 ∧ replyPayload t = q := by
  obtain ⟨u, hfirst, hru, hframe, hflen, hu⟩ := run_accepted (k := 8) hr hb hn he hs
  rw [hp] at hframe
  have hsent := run_sends_echoed (k := 2) hru (by rw [hu]) (by rw [hu]) (by rw [hu]; rfl) hframe
    (rest := [.rx (frame 0x4F#8 q), .seq]) (by rw [hu])
  have hexplen : u.explen = s.explen := by rw [hu]
  have hrcount : u.rcount = 0#9 := by rw [hu]
  obtain ⟨t, hreplied, ht, hchecks, hcount, hreply⟩ := run_replied (q := q)
    (s := { u with inputs := [.rx (frame 0x4F#8 q), .seq], rxq := [],
                   phyOut := u.phyOut ++ [.bytes (frame 0xF4#8 p)], txIdle := true, t0 := u.now,
                   ecount := u.flen, phase := phaseReplyWait })
    (reservedFault_of_same hru rfl rfl (show 9 ≤ 9 by decide)) rfl
    (by rw [expectedLength, hexplen]; exact he) (by rw [hl, expectedLength, expectedLength, hexplen]) rfl hrcount rfl
  have hsame : t.flen = u.flen := by rw [ht]
  rw [expectedLength, hexplen] at hcount
  refine ⟨t, hfirst.trans (hsent.trans hreplied), ?_, hchecks, by rw [hsame, hflen], hcount, hreply⟩
  rw [hsame]
  exact ht.trans (by rw [hu])

/-- Settles O36: the events make a run of `run_healthy`, whose final state has every field the statement asks for. -/
theorem healthyTransactSucceeds : Obligations.HealthyTransactSucceeds := by
  intro s q hr hb hn he hl
  obtain ⟨t, hrun, ht, hchecks, hflen, hrcount, hreply⟩ := run_healthy (s := { s with inputs :=
    [.write regCmd 0x04#8, .seq, .seq, .txIdle true, .rx (frame 0xF4#8 (payload s)), .seq, .seq,
      .rx (frame 0x4F#8 q), .seq] }) (p := payload s) hr hb hn he (payload_congr rfl rfl rfl) hl rfl
  have hecho : t.echo = Echo.clear := by rw [ht]
  have hecount : t.ecount = t.flen := by rw [ht]
  exact ⟨t, hrun, by rw [ht], by rw [ht], by rw [ht], by rw [ht], hchecks, by rw [hecho]; rfl,
    by rw [hecount, hflen]; rfl, hrcount, hreply, by rw [ht], by rw [ht], by rw [ht], by rw [ht]⟩

end Sys2Proof.Machine
end

section
/-! PROOFS. A payload that decodes begins with its row's bytes, and the byte of each acknowledgement (O7, O8). -/

namespace Sys2Proof

/-- Settles O7: for each code byte, what its part of the decoder has read (`decodeNoArgument_ok` to
`decodeQuery_ok`); only an acknowledgement leaves bytes over. -/
theorem decodedPayloadsMatchTheirRow : Obligations.DecodedPayloadsMatchTheirRow := by
  intro bs i h
  rcases bs with _ | ⟨code, args⟩
  · cases h
  simp only [decodePayload, decodeCode] at h
  repeat' split at h
  · subst code
    obtain ⟨rfl, rfl⟩ := decodeNoArgument_ok h
    exact ⟨rfl, [], rfl, fun _ => rfl⟩
  · subst code
    cases h
    exact ⟨rfl, args, rfl, nofun⟩
  · subst code
    obtain ⟨m, rfl, rfl⟩ := decodeOneArgument_ok h
    exact ⟨rfl, [], rfl, fun _ => rfl⟩
  · subst code
    obtain ⟨m, tail, rfl, rfl⟩ := decodeEchoAck_ok h
    exact ⟨rfl, tail, rfl, nofun⟩
  · subst code
    obtain ⟨m, rfl, rfl⟩ := decodeOneArgument_ok h
    exact ⟨rfl, [], rfl, fun _ => rfl⟩
  · subst code
    obtain ⟨m, tail, rfl, rfl⟩ := decodeEchoAck_ok h
    exact ⟨rfl, tail, rfl, nofun⟩
  · subst code
    obtain ⟨m, rfl, rfl⟩ := decodeCheck_ok h
    exact ⟨rfl, [], rfl, fun _ => rfl⟩
  · subst code
    cases h
    exact ⟨rfl, args, rfl, nofun⟩
  · subst code
    obtain ⟨henc, hcmd⟩ := decodeQuery_ok h
    exact ⟨hcmd, [], by rw [henc, List.append_nil], fun _ => rfl⟩
  · subst code
    cases h
    exact ⟨rfl, args, rfl, nofun⟩
  · cases h

/-- Settles O8, row by row; the argument byte of a row stands after its first byte. -/
theorem acknowledgementByteConvention : Obligations.AcknowledgementByteConvention :=
  ⟨fun _ => ⟨rfl, rfl⟩, fun _ => rfl, rfl, by decide⟩

end Sys2Proof
end

section
/-! PROOFS. The acknowledgement test, what each acknowledgement row does when it passes and when it fails, and the
telemetry it decodes (O51 to O56). -/

namespace Sys2Proof.Machine

/-! ### The test -/

theorem transactOk_iff (s : State) :
    transactOk s = true ↔ s.busy = false ∧ s.done = true ∧ s.res = resOk ∧ s.lastOp = 4#4 := by
  simp only [transactOk, Bool.and_eq_true, Bool.not_eq_true', decide_eq_true_eq, and_assoc]

theorem transactOk_eq_false (s : State) :
    transactOk s = false ↔ s.busy = true ∨ s.done = false ∨ s.res ≠ resOk ∨ s.lastOp ≠ 4#4 := by
  rw [← Bool.not_eq_true, transactOk_iff, Decidable.not_and_iff_or_not, Decidable.not_and_iff_or_not,
    Decidable.not_and_iff_or_not, Bool.not_eq_false, Bool.not_eq_true]

/-- Every acknowledgement row is a test of the reply (R264). -/
theorem exec_eq_testAck {i : Instr} (h : i.isAck = true) (s : State) :
    ∃ b u, exec i s = .next (testAck i b u s) := by
  cases i with
  | offAck | heatOnAck | ventOnAck | checkAck | queryAck => exact ⟨_, _, rfl⟩
  | _ => cases h

section Test

variable {i : Instr} {b : Bool} {u s : State}

/-- With no OK reply there is nothing to test (log 14). -/
theorem testAck_untested (h : transactOk s = false) : testAck i b u s = s := if_neg (ne_true_of_eq_false h)

theorem testAck_passed (ho : transactOk s = true) (hr : (replyPayload s).take (encode i).length = encode i)
    (hb : b = true) : testAck i b u s = u := by
  rw [testAck, if_pos ho, replyBegins, decide_eq_true hr, hb, Bool.true_and, if_pos rfl]

theorem testAck_failed (ho : transactOk s = true)
    (h : b = false ∨ (replyPayload s).take (encode i).length ≠ encode i) :
    testAck i b u s = notAcknowledged s := by
  rcases h with hb | hr
  · rw [testAck, if_pos ho, hb, Bool.and_false, if_neg Bool.false_ne_true]
  · rw [testAck, if_pos ho, replyBegins, decide_eq_false hr, Bool.false_and, if_neg Bool.false_ne_true]

end Test

/-! ### What is awaited -/

theorem checkTailOk_iff (c : Byte) (s : State) : checkTailOk c s = true ↔
    s.params.checkTailTested = false ∨ Config.checkTailAccepted c (replyPayload s).tail = true := by
  rw [checkTailOk, Bool.or_eq_true, Bool.not_eq_true']

theorem checkTailOk_eq_false (c : Byte) (s : State) : checkTailOk c s = false ↔
    s.params.checkTailTested = true ∧ Config.checkTailAccepted c (replyPayload s).tail = false := by
  rw [checkTailOk, Bool.or_eq_false_iff, Bool.not_eq_false']

theorem checkAcknowledged_check {s : State} {c : Byte} (h : s.client.pending = some (.check c)) :
    checkAcknowledged s = checkTailOk c s := by
  simp only [checkAcknowledged, h]

theorem checkAcknowledged_other {s : State} (h : ∀ c, s.client.pending ≠ some (.check c)) :
    checkAcknowledged s = false := by
  unfold checkAcknowledged
  split
  · exact absurd ‹_› (h _)
  · rfl

theorem queryAwaited_other {s : State}
    (h : ∀ q ∈ [Instr.queryFlags, .queryDrive, .querySensors, .queryCounters, .queryState],
      s.client.pending ≠ some q) : queryAwaited s = false := by
  unfold queryAwaited
  split
  case h_6 => rfl
  all_goals exact absurd ‹_› (h _ (by decide))

/-! ### The acknowledgement rows -/

/-- Settles O51: for each of the three rows the test passes. -/
theorem acknowledgedCommandSetsSession : Obligations.AcknowledgedCommandSetsSession := by
  intro s hb hd hr hl
  have hok := (transactOk_iff s).2 ⟨hb, hd, hr, hl⟩
  exact ⟨fun hp h => congrArg _ (testAck_passed (i := .offAck) hok h (decide_eq_true hp)),
    fun m hp h => congrArg _ (testAck_passed (i := .heatOnAck m) hok h (decide_eq_true hp)),
    fun m hp h => congrArg _ (testAck_passed (i := .ventOnAck m) hok h (decide_eq_true hp))⟩

/-- Settles O52: without an OK reply nothing is tested; with one, each clause is a test that fails. -/
theorem unmatchedAcknowledgementChangesNothing : Obligations.UnmatchedAcknowledgementChangesNothing := by
  refine ⟨fun s i hi h => ?_, fun s t hb hd hr hl ht => ?_⟩
  · obtain ⟨b, u, he⟩ := exec_eq_testAck hi s
    rw [he, testAck_untested ((transactOk_eq_false s).2 h)]
  · have hok := (transactOk_iff s).2 ⟨hb, hd, hr, hl⟩
    subst ht
    refine ⟨fun h => congrArg _ (testAck_failed hok (h.imp_left decide_eq_false)),
      fun m h => congrArg _ (testAck_failed hok (h.imp_left decide_eq_false)),
      fun m h => congrArg _ (testAck_failed hok (h.imp_left decide_eq_false)),
      fun h => congrArg _ (testAck_failed hok ?_),
      fun h => congrArg _ (testAck_failed hok (h.imp_left queryAwaited_other))⟩
    rcases h with hp | hr | ⟨htest, htail⟩
    · exact .inl (checkAcknowledged_other hp)
    · exact .inr hr
    · by_cases hp : ∃ c, s.client.pending = some (.check c)
      · obtain ⟨c, hc⟩ := hp
        exact .inl ((checkAcknowledged_check hc).trans ((checkTailOk_eq_false c s).2 ⟨htest, htail c hc⟩))
      · exact .inl (checkAcknowledged_other (not_exists.1 hp))

/-- Settles O53: the test passes on the first byte and on the tail. -/
theorem confirmedCheckDecrementsSession : Obligations.ConfirmedCheckDecrementsSession := by
  intro s c hb hd hr hl hp h htail
  have hok := (transactOk_iff s).2 ⟨hb, hd, hr, hl⟩
  have hacknowledged : checkAcknowledged s = true :=
    (checkAcknowledged_check hp).trans ((checkTailOk_iff c s).2 htail)
  exact congrArg _ (testAck_passed (i := .checkAck) hok h hacknowledged)

/-! ### Telemetry -/

/-- The acknowledgement of an awaited query goes on to decode the reply (R266, R276). -/
theorem exec_queryAck_decodes {s : State} (hok : transactOk s = true) (hr : (replyPayload s).take 1 = [0xD0#8])
    (hq : queryAwaited s = true) : exec .queryAck s = .next (decodeReply s) :=
  congrArg _ (testAck_passed (i := .queryAck) hok hr hq)

/-- Settles O54: the test passes for every query, and the data bytes are of the length its decoder asks for, so
each clause is the decoder's own formula. -/
theorem acknowledgedQueryStoresSnapshot : Obligations.AcknowledgedQueryStoresSnapshot := by
  intro s hb hd hr hl h
  have hok := (transactOk_iff s).2 ⟨hb, hd, hr, hl⟩
  refine ⟨fun b hp hdata => ?_, fun g p f hp hdata => ?_, fun x v r hp hdata => ?_,
    fun h1 l1 m1 h2 l2 m2 c1 c0 hp hdata => ?_, fun b hp hdata => ?_⟩
  all_goals
    rw [exec_queryAck_decodes hok h (by simp only [queryAwaited, hp])]
    simp only [decodeReply, hp, hdata]
    rfl

theorem interpolate_eq {c : Config.Calibration} (h : c.x1 ≠ c.x2) (raw : Rat) :
    interpolate c raw =
      (c.y2 - c.y1) / (c.x2 - c.x1) * raw + (c.y1 - (c.y2 - c.y1) / (c.x2 - c.x1) * c.x1) := by
  simp only [interpolate, if_neg h.symm]

/-- Settles O55: the line through (x1, y1) with the slope of the two points also meets (x2, y2). -/
theorem sensorInterpolation : Obligations.SensorInterpolation := by
  refine ⟨fun c raw hne => ⟨?_, ?_, interpolate_eq hne raw⟩, ?_⟩
  · rw [interpolate_eq hne]
    ring
  · have hrise : (c.y2 - c.y1) / (c.x2 - c.x1) * (c.x2 - c.x1) = c.y2 - c.y1 :=
      div_mul_cancel₀ _ (sub_ne_zero.2 hne.symm)
    rw [interpolate_eq hne]
    linear_combination hrise
  · rw [interpolate_eq (by decide)]
    norm_num [Config.temperatureCal]

/-! ### Only a confirmed acknowledgement changes what the client knows -/

/-- Settles O56: a command leaves the client alone, a request sets what is awaited, and an acknowledgement changes
the session or a snapshot only when its test passes (`exec_ack_client`). -/
theorem clientStateChangesOnlyWhenConfirmed : Obligations.ClientStateChangesOnlyWhenConfirmed := by
  intro s t i he hchanged
  rcases instr_kinds i with hi | hi | hi
  · rw [exec_command hi] at he
    cases he
    simp only [commandWrite_client, ne_eq, not_true, or_self] at hchanged
  · rw [exec_request hi] at he
    cases he
    simp only [sendRequest_client, ne_eq, not_true, or_self] at hchanged
  · rcases exec_ack_client hi he with ⟨hsession, hsnapshots⟩ | ⟨hok, -, hpending, hsettled⟩
    · exact absurd hchanged (not_or.2 ⟨not_not.2 hsnapshots, not_not.2 hsession⟩)
    · obtain ⟨hb, hd, hr, hl⟩ := (transactOk_iff s).1 hok
      exact ⟨hi, hb, hd, hr, hl, hpending, hsettled⟩

end Sys2Proof.Machine
end

section
/-! PROOFS. How an attempt and an operation end, the renewal of a session, and what a tick starts (O57, O59, O60). -/

namespace Sys2Proof.Machine

/-! ### The end of an attempt -/

theorem settleJob_confirmed (j : Job) {s : State} (h : s.client.outcome = .confirmed) :
    settleJob j s = endJob j s := if_pos h

theorem settleJob_session (j : Job) (s : State) : (settleJob j s).client.session = s.client.session := by
  rw [settleJob_client]

/-- Settles O57: another attempt (`settleJob_again`), or the operation's end, which for a request other than CHECK
leaves no job (`endJob_other`). -/
theorem failedAttemptsLeaveSession : Obligations.FailedAttemptsLeaveSession := by
  refine fun s j => ⟨fun hc => ⟨settleJob_session j s, fun ha => ?_, fun ha hreq => ?_⟩,
    fun hc hreq => ⟨?_, settleJob_session j s⟩⟩
  · rw [settleJob_again hc ha]
    rfl
  · rw [settleJob_exhausted ha, endJob_other hreq]
    rfl
  · rw [settleJob_confirmed j hc, endJob_other hreq]
    rfl

/-! ### Renewal -/

/-- After a CHECK that is over, confirmed or exhausted, the renewal test follows (R269; log 25). -/
theorem settleJob_check_over {s : State} {j : Job} {c : Byte} (hreq : j.request = .check c)
    (h : s.client.outcome = .confirmed ∨ j.attempts ≤ 1) : settleJob j s = renewSession (setJob none s) := by
  rcases h with hc | ha
  · rw [settleJob_confirmed j hc, endJob_check hreq]
  · rw [settleJob_exhausted ha, endJob_check hreq]

theorem renewSession_low {s : State} {i : Instr} (h : s.client.session.remaining < s.pace.renewBelowS)
    (hi : sessionRequest s.client.session.mode s.pace.renewMinutes = some i) :
    renewSession s = startJob i s.pace.attempts s := by
  simp only [renewSession, if_pos h, hi]

theorem renewSession_not {s : State}
    (h : s.pace.renewBelowS ≤ s.client.session.remaining ∨ s.client.session.mode = .off) : renewSession s = s := by
  rcases h with hle | hoff
  · exact if_neg (Nat.not_lt.2 hle)
  · simp only [renewSession, hoff, sessionRequest, ite_self]

/-- A session below the threshold starts the renewal; ending the job leaves what the renewal test reads. -/
theorem settleJob_renews {s : State} {j : Job} {c : Byte} {i : Instr} (hreq : j.request = .check c)
    (h : s.client.outcome = .confirmed ∨ j.attempts ≤ 1) (hlow : s.client.session.remaining < s.pace.renewBelowS)
    (hi : sessionRequest s.client.session.mode s.pace.renewMinutes = some i) :
    (settleJob j s).client.job = some { request := i, attempts := s.pace.attempts, stage := .wake } := by
  rw [settleJob_check_over hreq h, renewSession_low (s := setJob none s) hlow hi]
  rfl

/-- Settles O59: the renewal's request is that of the session's mode (`settleJob_renews`). -/
theorem lowSessionIsRenewed : Obligations.LowSessionIsRenewed := by
  refine fun s j c hreq hover => ⟨fun hlow hmode => settleJob_renews hreq hover hlow (by rw [hmode]; rfl),
    fun hlow hmode => settleJob_renews hreq hover hlow (by rw [hmode]; rfl), fun hnot => ?_,
    settleJob_session j s, rfl, rfl⟩
  rw [settleJob_check_over hreq hover, renewSession_not (s := setJob none s) hnot]
  rfl

/-! ### Which task is due -/

theorem mem_rotation (t x : Task) : x ∈ t.rotation := by
  cases t <;> cases x <;> decide

theorem taskRequest_eq_none_iff (s : State) (x : Task) :
    taskRequest s x = none ↔ x = .keepAlive ∧ s.client.session.mode = .off := by
  cases x with
  | keepAlive => cases hm : s.client.session.mode <;> simp [taskRequest, sessionCode, hm]
  | _ => simp [taskRequest]

/-- The keep-alive's CHECK, or a query with one attempt (R265, R269, R276). -/
theorem taskRequest_some {s : State} {x : Task} {i : Instr} {n : Nat} (h : taskRequest s x = some (i, n)) :
    (x = .keepAlive ∧ s.client.session.mode = .heating ∧ i = .check 0x21#8 ∧ n = s.pace.attempts) ∨
    (x = .keepAlive ∧ s.client.session.mode = .venting ∧ i = .check 0x22#8 ∧ n = s.pace.attempts) ∨
    (x = .flags ∧ i = .queryFlags ∧ n = 1) ∨ (x = .drive ∧ i = .queryDrive ∧ n = 1) ∨
    (x = .sensors ∧ i = .querySensors ∧ n = 1) ∨ (x = .counters ∧ i = .queryCounters ∧ n = 1) ∨
    (x = .state ∧ i = .queryState ∧ n = 1) := by
  cases x with
  | keepAlive => cases hm : s.client.session.mode <;> simp_all [taskRequest, sessionCode]
  | _ => simp_all [taskRequest]

theorem periodPassed_iff (s : State) (x : Task) : periodPassed s x = true ↔
    s.client.lastRun.get x = none ∨ ∃ r, s.client.lastRun.get x = some r ∧ taskPeriod s x ≤ elapsed s r := by
  unfold periodPassed
  cases s.client.lastRun.get x <;> simp

theorem periodPassed_eq_false {s : State} {x : Task} (h : periodPassed s x = false) :
    ∃ r, s.client.lastRun.get x = some r ∧ elapsed s r < taskPeriod s x := by
  unfold periodPassed at h
  cases hl : s.client.lastRun.get x with
  | none => simp [hl] at h
  | some r => exact ⟨r, rfl, by simpa [hl] using h⟩

/-- The tick does nothing only when no task is due: none has a request and a period that has passed. -/
theorem not_due_of_chooseTask_none {s : State} (h : chooseTask s = none) (x : Task) :
    (x = .keepAlive ∧ s.client.session.mode = .off) ∨
    ∃ r, s.client.lastRun.get x = some r ∧ elapsed s r < taskPeriod s x := by
  have hdue : ¬ taskDue s x = true := List.find?_eq_none.1 h x (mem_rotation _ x)
  rw [taskDue, Bool.and_eq_true, not_and_or, Bool.not_eq_true, Bool.not_eq_true, Option.isSome_eq_false_iff,
    Option.isNone_iff_eq_none, taskRequest_eq_none_iff] at hdue
  exact hdue.imp_right periodPassed_eq_false

/-- The task a tick chooses has a request, and its period has passed. -/
theorem due_of_chooseTask {s : State} {x : Task} (h : chooseTask s = some x) :
    ∃ i n, taskRequest s x = some (i, n) ∧ periodPassed s x = true := by
  have hdue : taskDue s x = true := List.find?_some h
  obtain ⟨hreq, hperiod⟩ := Bool.and_eq_true_iff.1 hdue
  obtain ⟨⟨i, n⟩, hi⟩ := Option.isSome_iff_exists.1 hreq
  exact ⟨i, n, hi, hperiod⟩

/-! ### The tick -/

theorem clientTick_free {s : State} (h : s.client.job = none) (d : Bool) :
    clientTick d s = .next (tickTask (tickDrain d s)) := by
  simp only [clientTick, h]

theorem tickTask_none {s : State} (h : chooseTask s = none) : tickTask s = s := by
  simp only [tickTask, h]

theorem tickTask_some {s : State} {x : Task} {i : Instr} {n : Nat} (h : chooseTask s = some x)
    (hr : taskRequest s x = some (i, n)) :
    tickTask s = startJob i n { s with client := { s.client with
      nextTask := x.after, lastRun := s.client.lastRun.set x s.now } } := by
  simp only [tickTask, h, startTask, hr]

/-- Only one of the three queries can have a period of its own (log 7). -/
theorem queryPeriods_shared (s : State) :
    (taskPeriod s .drive = s.pace.queryMs ∨ taskPeriod s .sensors = s.pace.queryMs) ∧
    (taskPeriod s .drive = s.pace.queryMs ∨ taskPeriod s .state = s.pace.queryMs) ∧
    (taskPeriod s .sensors = s.pace.queryMs ∨ taskPeriod s .state = s.pace.queryMs) := by
  cases h : s.params.ownPeriod <;> simp only [taskPeriod, h, true_or, or_true, and_self]

/-- Settles O60: no task is due, or the one chosen starts; a drain leaves the client alone, so the tick after it is
the tick without one. -/
theorem tickRunsAtMostOneTask : Obligations.TickRunsAtMostOneTask := by
  refine ⟨fun s hj => ⟨⟨tickTask s, clientTick_free hj false, ?_⟩, fun hb => ⟨writeDrain s, rfl, ?_⟩,
    fun hb => ?_⟩, fun s => ⟨rfl, rfl, rfl, queryPeriods_shared s⟩, rfl, rfl, rfl⟩
  · cases hc : chooseTask s with
    | none =>
      rw [tickTask_none hc]
      exact ⟨rfl, rfl, rfl, .inl ⟨rfl, not_due_of_chooseTask_none hc⟩⟩
    | some x =>
      obtain ⟨i, n, hr, hperiod⟩ := due_of_chooseTask hc
      rw [tickTask_some hc hr]
      have hpassed := (periodPassed_iff s x).1 hperiod
      exact ⟨rfl, rfl, rfl, .inr ⟨x, i, n, hpassed, taskRequest_some hr, rfl, rfl, rfl⟩⟩
  · have hdrain : tickDrain true s = writeDrain s := if_pos (by rw [hb]; decide)
    have hfree : (writeDrain s).client.job = none := by rw [writeDrain_client, hj]
    rw [clientTick_free hj, clientTick_free hfree, hdrain]
    rfl
  · have hdrain : tickDrain true s = s := if_neg (by rw [hb]; decide)
    rw [clientTick_free hj, clientTick_free hj, hdrain]
    rfl

end Sys2Proof.Machine
end

section
/-! PROOFS. What stops the machine: the client's moves never do, and an event only by a breach of the environment or
as bytes that are no row (O47, O48). -/

namespace Sys2Proof.Machine

/-! ### The environment's breaches -/

/-- Removing at least one byte from a nonempty `rxq` is the PHY's breach (R156, R304). -/
theorem phyRemove_breach {k : Nat} {s : State} (hk : k ≠ 0) (hq : s.rxq ≠ []) :
    phyRemove k s = .fault .phyRemovedBytes := if_neg (not_or.2 ⟨hk, hq⟩)

theorem phyRemove_nothing {k : Nat} {s : State} (h : k = 0 ∨ s.rxq = []) : phyRemove k s = .next s := if_pos h

/-- Setting the clock below `now` is CLOCK's breach (R40, R304). -/
theorem clockTo_backwards {ms : Nat} {s : State} (h : ms < s.now.toNat) :
    clockTo ms s = .fault .clockBackwards := if_pos h

theorem clockTo_forwards {ms : Nat} {s : State} (h : ¬ ms < s.now.toNat) :
    clockTo ms s = .next { s with now := BitVec.ofNat 32 ms } := if_neg h

/-- Settles O47: the next event happens, and it is the breach. -/
theorem environmentBreachesFault : Obligations.EnvironmentBreachesFault := fun _ _ hr =>
  ⟨fun k hin hq => (step_event hr hin).trans (phyRemove_breach (Nat.succ_ne_zero k) hq),
    fun _ hin hlt => (step_event hr hin).trans (clockTo_backwards hlt)⟩

/-! ### The client's moves never stop the machine -/

theorem testReply_next (j : Job) (s : State) : ∃ t, testReply j s = .next t := by
  by_cases h : ∃ i, decodePayload (replyPayload s) = .ok i ∧ i.isAck = true
  · obtain ⟨i, hd, hi⟩ := h
    obtain ⟨t, -, ht⟩ := testReply_ack j hd hi
    exact ⟨_, ht⟩
  · exact ⟨_, testReply_notAck j fun i hd => Bool.eq_false_iff.2 fun hi => h ⟨i, hd, hi⟩⟩

theorem finishAttempt_next (j : Job) (s : State) : ∃ t, finishAttempt j s = .next t := by
  by_cases hr : s.res = resOk
  · by_cases hl : s.lastOp = 4#4
    · rw [finishAttempt_transact j hr hl]
      exact testReply_next j s
    · exact ⟨_, finishAttempt_other j hr hl⟩
  · exact ⟨_, finishAttempt_blockError j hr⟩

/-- A job's move that runs an instruction answers a next state, as the instruction does. -/
theorem andThen_exec_next (i : Instr) (s : State) (f : State → State) :
    ∃ t, andThen (exec i s) (fun u => .next (f u)) = .next t :=
  have ⟨_, _, ht⟩ := andThen_exec i s (fun u => .next (f u))
  ⟨_, ht⟩

theorem moveJob_next (j : Job) (s : State) : ∃ t, moveJob j s = .next t := by
  cases hg : j.stage with
  | wake =>
    rw [moveJob_wake hg]
    split
    · exact ⟨s, rfl⟩
    · exact andThen_exec_next .ensureAwake s _
  | wakeWait =>
    rw [moveJob_wakeWait hg]
    split <;> exact ⟨_, rfl⟩
  | send =>
    rw [moveJob_send hg]
    split
    · exact ⟨s, rfl⟩
    · exact andThen_exec_next j.request s _
  | replyWait =>
    rw [moveJob_replyWait hg]
    split
    · exact finishAttempt_next j s
    · exact ⟨s, rfl⟩

theorem clientMove_next (s : State) : ∃ t, clientMove s = .next t := by
  cases h : s.client.job with
  | some j =>
    rw [clientMove_job h]
    exact moveJob_next j s
  | none => exact ⟨s, by simp only [clientMove, h]⟩

/-- With no event pending the machine goes on: the block's own rules reach no stop (R304). -/
theorem idleMove_next (s : State) : ∃ t, idleMove s = .next t := by
  unfold idleMove
  split
  · exact ⟨_, rfl⟩
  · exact clientMove_next s

/-! ### What an event can answer -/

/-- What an event answers: a next state, a fault by a breach of the environment, or the refusal of a payload
that is no row. -/
inductive EventAnswer (e : Event) : Host.Outcome State Fault Refusal → Prop
  /-- The event happens. -/
  | next (t : State) : EventAnswer e (.next t)
  /-- The environment breaks a duty (R90, R304). -/
  | breach (f : Fault) (hf : f.fromEnvironment = true) : EventAnswer e (.fault f)
  /-- The event is a payload whose bytes are no row of the opcode table (log 23). -/
  | notARow (bs : List Byte) (r : DecodeError) (he : e = .payload bs) (hd : decodePayload bs = .error r) :
    EventAnswer e (.refused (.notARow r))

theorem EventAnswer.of_next {e : Event} {o : Host.Outcome State Fault Refusal} (h : ∃ t, o = .next t) :
    EventAnswer e o := by
  obtain ⟨t, rfl⟩ := h
  exact .next t

theorem clientPayload_answer (bs : List Byte) (s : State) : EventAnswer (.payload bs) (clientPayload bs s) := by
  unfold clientPayload
  split
  next i _ => exact .of_next (exec_next i s)
  next r hd => exact .notARow bs r rfl hd

theorem runEvent_answer (e : Event) (s : State) : EventAnswer e (runEvent e s) := by
  cases e with
  | write a v => exact .of_next (clientWrite_next a v s)
  | payload bs => exact clientPayload_answer bs s
  | client => exact .of_next (clientMove_next s)
  | clockTo ms =>
    show EventAnswer _ (clockTo ms s)
    by_cases h : ms < s.now.toNat
    · rw [clockTo_backwards h]
      exact .breach _ rfl
    · rw [clockTo_forwards h]
      exact .next _
  | phyRemove k =>
    show EventAnswer _ (phyRemove k s)
    by_cases h : k = 0 ∨ s.rxq = []
    · rw [phyRemove_nothing h]
      exact .next _
    · obtain ⟨hk, hq⟩ := not_or.1 h
      rw [phyRemove_breach hk hq]
      exact .breach _ rfl
  | call c =>
    show EventAnswer _ (clientCall c s)
    cases h : s.client.job with
    | some j =>
      rw [clientCall_concurrent h]
      exact .breach _ rfl
    | none =>
      rw [clientCall_starts h]
      exact .next _
  | tick d =>
    show EventAnswer _ (clientTick d s)
    cases h : s.client.job with
    | some j =>
      rw [clientTick_concurrent h]
      exact .breach _ rfl
    | none =>
      rw [clientTick_free h]
      exact .next _
  | read | poll | seq | rx | txIdle | rst | line => exact .next _

/-! ### What stops a step -/

/-- Without a reserved encoding a step goes on, or answers what its next event answers. -/
theorem step_answer {s : State} (hr : reservedFault s = none) :
    (∃ t, step s = .next t) ∨ ∃ e rest, s.inputs = e :: rest ∧ EventAnswer e (step s) := by
  cases hs : s.inputs with
  | nil =>
    rw [step_no_event hr hs]
    exact .inl (idleMove_next s)
  | cons e rest =>
    rw [step_event hr hs]
    exact .inr ⟨e, rest, rfl, runEvent_answer e _⟩

/-- Without a reserved encoding only a breach of the environment faults. -/
theorem fromEnvironment_of_step_fault {s : State} {f : Fault} (hr : reservedFault s = none) (h : step s = .fault f) :
    f.fromEnvironment = true := by
  have ha := step_answer hr
  rw [h] at ha
  obtain ⟨t, ht⟩ | ⟨e, rest, -, hbreach⟩ := ha
  · cases ht
  · cases hbreach with
    | breach _ hf => exact hf

/-- A step that is refused met a payload that is no row. -/
theorem notARow_of_step_refused {s : State} {r : Refusal} (h : step s = .refused r) :
    ∃ (bs : List Byte) (rest : List Event) (e : DecodeError), s.inputs = .payload bs :: rest ∧
      decodePayload bs = .error e ∧ r = .notARow e := by
  cases hr : reservedFault s with
  | some g =>
    rw [step_reservedFault hr] at h
    cases h
  | none =>
    have ha := step_answer hr
    rw [h] at ha
    obtain ⟨t, ht⟩ | ⟨e, rest, hin, hrefused⟩ := ha
    · cases ht
    · cases hrefused with
      | notARow bs d he hd => exact ⟨bs, rest, d, he ▸ hin, hd, rfl⟩

/-- A legal state holds no reserved encoding (R124). -/
theorem Inv.reservedFault_eq_none {s : State} (h : Inv s) : reservedFault s = none :=
  (reservedFault_eq_none_iff s).2 ⟨h.phase_legal, h.res_legal, h.ferr_legal⟩

/-- Settles O48: the invariant excludes the reserved encodings, and an event answers by `EventAnswer`. -/
theorem stopsComeOnlyFromOutside : Obligations.StopsComeOnlyFromOutside :=
  ⟨fun _ _ hinv => fromEnvironment_of_step_fault hinv.reservedFault_eq_none, fun _ _ => notARow_of_step_refused⟩

end Sys2Proof.Machine
end

section
/-! PROOFS. The reset input, and the holds on `tx_idle`, which nothing but the PHY's report or RST ends (O3, O42). -/

namespace Sys2Proof.Machine

/-- Settles O3: the event is RST, and what it leaves is `assertReset`. -/
theorem resetInputClearsBlock : Obligations.ResetInputClearsBlock := fun s rest hr hin =>
  ⟨assertReset { s with inputs := rest }, step_event hr hin, rfl⟩

/-! ### A hold -/

/-- The block waits for `tx_idle`, in TX_FLUSH or WAKE_HOLD, and its command is not done (R155). -/
structure Holding (s : State) : Prop where
  phase : s.phase = phaseTxFlush ∨ s.phase = phaseWakeHold
  txIdle : s.txIdle = false
  done : s.done = false

/-- What an event may change in a hold: CMD_ERR, the client and what it has read, the receive queue and the clock.
The block's phase, DONE and what it handed to the PHY stay. -/
def Waits (s t : State) : Prop :=
  t = { s with cmdErr := t.cmdErr, client := t.client, reads := t.reads, rxq := t.rxq, rxDraws := t.rxDraws,
               now := t.now }

theorem Holding.busy {s : State} (h : Holding s) : s.busy = true := by
  rw [busy_eq_true]
  rcases h.phase with hp | hp <;> (rw [hp]; decide)

theorem Holding.of_waits {s t : State} {l : List Event} (h : Holding s) (hw : Waits { s with inputs := l } t) :
    Holding t := by
  rw [hw]
  exact ⟨h.phase, h.txIdle, h.done⟩

/-- SEQ has nothing to do in a hold: neither phase has a deadline (R204, R226). -/
theorem seqStep_holding {s : State} (h : Holding s) : seqStep s = s := by
  have hidle : ¬s.txIdle = true := ne_true_of_eq_false h.txIdle
  rcases h.phase with hp | hp
  · rw [seqStep_txFlush hp]
    exact if_neg hidle
  · rw [seqStep_wakeHold hp]
    exact if_neg hidle

/-! ### The client in a hold -/

/-- While BUSY an instruction sets CMD_ERR or changes the client, and nothing else (R45). -/
theorem exec_busy {i : Instr} {s t : State} (hb : s.busy = true) (h : exec i s = .next t) :
    t = { s with cmdErr := t.cmdErr, client := t.client } := by
  rcases instr_kinds i with hi | hi | hi
  · cases (exec_command_busy hi hb).symm.trans h
    rfl
  · cases (exec_request hi s).symm.trans h
    rw [sendRequest, request_busy _ _ hb]
    rfl
  · obtain ⟨c, hc⟩ := exec_ack hi s
    cases hc.symm.trans h
    rfl

/-- A job waits at every stage while the block is BUSY and DONE is 0 (R268; log 16). -/
theorem moveJob_busy (j : Job) {s : State} (hb : s.busy = true) (hd : s.done = false) : moveJob j s = .next s := by
  have hd' : ¬s.done = true := ne_true_of_eq_false hd
  cases hg : j.stage with
  | wake => rw [moveJob_wake hg, if_pos hb]
  | wakeWait => rw [moveJob_wakeWait hg, if_neg hd']
  | send => rw [moveJob_send hg, if_pos hb]
  | replyWait => rw [moveJob_replyWait hg, if_neg hd']

theorem clientMove_busy {s : State} (hb : s.busy = true) (hd : s.done = false) : clientMove s = .next s := by
  cases h : s.client.job with
  | some j => rw [clientMove_job h, moveJob_busy j hb hd]
  | none => simp only [clientMove, h]

/-- While BUSY a tick changes the client alone: it does not drain the block (R276). -/
theorem clientTick_busy {d : Bool} {s t : State} (hb : s.busy = true) (h : clientTick d s = .next t) :
    t = { s with client := t.client } := by
  have hdrain : tickDrain d s = s := if_neg (by rw [hb, Bool.not_true, Bool.and_false]; decide)
  cases hj : s.client.job with
  | some j => cases (clientTick_concurrent hj d).symm.trans h
  | none =>
    cases (clientTick_free hj d).symm.trans h
    rw [hdrain]
    exact tickTask_eq s

/-- POLL puts one of the events to come before the others. -/
theorem perm_of_pullOther {l others : List Event} {e : Event} (h : pullOther l = some (e, others)) :
    (e :: others).Perm l := by
  induction l generalizing others with
  | nil => cases h
  | cons x rest ih =>
    unfold pullOther at h
    split at h
    · split at h
      next o os hpull =>
        cases h
        exact (List.Perm.swap x e os).trans ((ih hpull).cons x)
      · cases h
    · cases h
      exact .refl _

/-- In a hold POLL reads STATUS and stays; no event is added to those to come (log 22). -/
theorem clientPoll_holding {s : State} (h : Holding s) :
    Waits { s with inputs := (clientPoll s).inputs } (clientPoll s) ∧
      (clientPoll s).inputs ⊆ .poll :: s.inputs := by
  have hread : Holding (clientRead regStatus s) := ⟨h.phase, h.txIdle, h.done⟩
  unfold clientPoll
  rw [if_neg (ne_true_of_eq_false h.done), seqStep_holding hread]
  cases hpull : pullOther s.inputs with
  | none => exact ⟨rfl, List.Subset.refl _⟩
  | some p =>
    refine ⟨rfl, ?_⟩
    have hperm := ((perm_of_pullOther hpull).cons .poll).subset
    exact fun x hx => hperm ((List.Perm.swap .poll p.1 p.2).subset hx)

/-! ### Steps and runs in a hold -/

/-- No event but the PHY's report and RST ends a hold. POLL is apart, as it alone moves the events to come. -/
theorem runEvent_holding {e : Event} {s t : State} (h : Holding s) (hreport : e ≠ .txIdle true) (hreset : e ≠ .rst)
    (hpoll : e ≠ .poll) (he : runEvent e s = .next t) : Waits s t := by
  have hb := h.busy
  have instruction : ∀ i, exec i s = .next t → Waits s t := fun i hx => by
    rw [exec_busy hb hx]
    rfl
  cases e with
  | write a v =>
    change clientWrite a v s = .next t at he
    by_cases ha : a = regCmd
    · subst ha
      cases hd : decodeCommand v with
      | ok i => exact instruction i ((clientWrite_command hd s).symm.trans he)
      | error r =>
        cases (clientWrite_illegal hd s).symm.trans he
        rw [illegalCommand_busy v hb]
        rfl
    · cases (clientWrite_operand ha v s).symm.trans he
      rw [writeOperand_busy a v hb]
      rfl
  | payload bs =>
    simp only [runEvent, clientPayload] at he
    split at he
    · exact instruction _ he
    · cases he
  | poll => exact absurd rfl hpoll
  | seq =>
    cases he
    rw [seqStep_holding h]
    rfl
  | client =>
    cases (clientMove_busy hb h.done).symm.trans he
    rfl
  | tick d =>
    rw [clientTick_busy hb he]
    rfl
  | call c =>
    cases hj : s.client.job with
    | some j => cases (clientCall_concurrent hj c).symm.trans he
    | none =>
      cases (clientCall_starts hj c).symm.trans he
      rfl
  | clockTo ms =>
    simp only [runEvent, clockTo] at he
    split at he <;> cases he
    rfl
  | phyRemove k =>
    simp only [runEvent, phyRemove] at he
    split at he <;> cases he
    rfl
  | line v err =>
    obtain ⟨bs, -, hq⟩ := phyReceive_eq v err s
    cases he
    rw [hq]
    rfl
  | txIdle b =>
    cases b with
    | true => exact absurd rfl hreport
    | false =>
      cases he
      have hsame : { s with txIdle := false } = s := by rw [← h.txIdle]
      rw [hsame]
      rfl
  | rst => exact absurd rfl hreset
  | read a | rx bs =>
    cases he
    rfl

/-- A step in a hold waits, and adds nothing to the events to come (R357). -/
theorem step_holding {s t : State} (h : Holding s) (hreport : .txIdle true ∉ s.inputs) (hreset : .rst ∉ s.inputs)
    (hs : step s = .next t) : Waits { s with inputs := t.inputs } t ∧ t.inputs ⊆ s.inputs := by
  have hr := (step_cases hs).1
  cases hin : s.inputs with
  | nil =>
    have hidle : idleMove s = .next s := (if_pos h.busy).trans (congrArg _ (seqStep_holding h))
    cases ((step_no_event hr hin).trans hidle).symm.trans hs
    exact ⟨rfl, hin ▸ List.Subset.refl _⟩
  | cons e rest =>
    rw [hin] at hreport hreset
    have he := (step_event hr hin).symm.trans hs
    have hrest : Holding { s with inputs := rest } := ⟨h.phase, h.txIdle, h.done⟩
    by_cases hpoll : e = .poll
    · subst hpoll
      cases he
      exact clientPoll_holding hrest
    · have hw := runEvent_holding hrest (fun hc => hreport (hc ▸ List.mem_cons_self))
        (fun hc => hreset (hc ▸ List.mem_cons_self)) hpoll he
      rw [hw]
      exact ⟨rfl, List.subset_cons_self _ _⟩

/-- A run that answers a next state begins with a step that does. -/
theorem run_succ_next {n : Nat} {s t : State} (h : runSteps (n + 1) s = .next t) :
    ∃ u, step s = .next u ∧ runSteps n u = .next t := by
  cases hs : step s with
  | next u => exact ⟨u, rfl, (run_step hs).symm.trans h⟩
  | fault r => simp only [runSteps, Host.Core.run, hs, reduceCtorEq] at h
  | refused r => simp only [runSteps, Host.Core.run, hs, reduceCtorEq] at h

/-- Settles O42, by induction on the number of steps: each is a wait (`step_holding`), after which the hold goes on
with no event that was not to come before. -/
theorem holdsAreStuckUntilTxIdle : Obligations.HoldsAreStuckUntilTxIdle := by
  intro n s t hphase hidle hdone hreport hreset hrun
  have h : Holding s := ⟨hphase, hidle, hdone⟩
  clear hphase hidle hdone
  induction n generalizing s with
  | zero =>
    cases hrun
    exact ⟨rfl, h.done, rfl⟩
  | succ n ih =>
    obtain ⟨u, hstep, hrest⟩ := run_succ_next hrun
    obtain ⟨hw, hsub⟩ := step_holding h hreport hreset hstep
    have hu := ih u (fun hc => hreport (hsub hc)) (fun hc => hreset (hsub hc)) hrest (h.of_waits hw)
    rw [hw] at hu
    exact hu

end Sys2Proof.Machine
end
